-- ==== Sys2Proof/Word.lean ====
section
/-! DEFINITION. The widths the spec fixes: a command, operand or register word is 32 bits (30_encoding.md R100,
10_state.md R21), a field of a command word 8 bits, a counter 64 bits, a syndrome 24 bits. -/

namespace Sys2Proof

/-- A 32-bit word: a command word, an operand word, a CSR or the pattern of a binary32 number (R21, R74, R100). -/
abbrev Word := BitVec 32

/-- An 8-bit field: an opcode, a CSR number, a frame byte, an outcome code. -/
abbrev Byte := BitVec 8

/-- A 64-bit register or operand (R29, R30, R40, R102). -/
abbrev DWord := BitVec 64

/-- A syndrome or a parity table entry (R13 (b), R42, R46). -/
abbrev Word24 := BitVec 24

/-- The number of one bits of a natural number (R7). -/
def popcount (x : Nat) : Nat := (List.range (x.log2 + 1)).countP x.testBit

end Sys2Proof
end

