-- ==== Sys2Proof/Syntax.lean ====
section
/-! DEFINITION. The fifteen commands of 30_encoding.md R103, one constructor per row of spec/opcode_table.json, with
the operands that rule lists. Which operand values a command accepts is WellFormed.lean's and the meanings' matter:
an illegal operand is a legal spelling (R104). -/

namespace Sys2Proof

/-- One command of the host (R103). -/
inductive Instr where
  /-- RESET (R131). -/
  | reset
  /-- CSRRD csr (R132). -/
  | csrrd (csr : Byte)
  /-- CSRWR csr, data (R133). -/
  | csrwr (csr : Byte) (data : Word)
  /-- ANCHOR secs, frac, idx (R134). -/
  | anchor (secs : DWord) (frac : Word) (idx : DWord)
  /-- CRC.CHECK length (R151). -/
  | crcCheck (length : Byte)
  /-- DET.TEST j, N (R169). -/
  | detTest (j : Word) (n : Word)
  /-- RUN.DETECT N (R173). -/
  | runDetect (n : Word)
  /-- SLICE.BIT e0, e1, ref (R191). -/
  | sliceBit (e0 : Word) (e1 : Word) (ref : Word)
  /-- SLICE.FRAME N (R194). -/
  | sliceFrame (n : Word)
  /-- CLS.KIND hdr (R212). -/
  | clsKind (hdr : BitVec 5)
  /-- CLS.FRUIT N (R214). -/
  | clsFruit (n : Word)
  /-- VALIDATE (R221). -/
  | validate
  /-- NEXTCOMB x (R241). -/
  | nextcomb (x : Word)
  /-- CORRECT (R244). -/
  | correct
  /-- RUN.DECODE N (R260). -/
  | runDecode (n : Word)
  deriving DecidableEq, Repr

end Sys2Proof
end

