-- ==== Sys2Proof/Decode.lean ====
section
/-! DEFINITION. The command words of 30_encoding.md: the opcode map of R103 as rows of pattern, mask and operand count,
the decoder (total on any list of words, R100 to R102, R104) and the encoder written from the same rows.
Words are 32-bit quantities; the spec serialises them to no bytes (20_memory.md R74; log 7). -/

namespace Sys2Proof

/-- The fifteen opcodes (R103). -/
inductive Opcode where
  | reset | csrrd | csrwr | anchor | crcCheck | detTest | runDetect | sliceBit | sliceFrame
  | clsKind | clsFruit | validate | nextcomb | correct | runDecode
  deriving DecidableEq, Repr

/-- Column `OPC` of R103. -/
def Opcode.number : Opcode → Byte
  | .reset => 0x01
  | .csrrd => 0x02
  | .csrwr => 0x03
  | .anchor => 0x04
  | .crcCheck => 0x10
  | .detTest => 0x20
  | .runDetect => 0x21
  | .sliceBit => 0x30
  | .sliceFrame => 0x31
  | .clsKind => 0x40
  | .clsFruit => 0x41
  | .validate => 0x50
  | .nextcomb => 0x60
  | .correct => 0x61
  | .runDecode => 0x70

/-- All fifteen opcodes, in the order of R103. -/
def Opcode.all : List Opcode :=
  [.reset, .csrrd, .csrwr, .anchor, .crcCheck, .detTest, .runDetect, .sliceBit, .sliceFrame,
   .clsKind, .clsFruit, .validate, .nextcomb, .correct, .runDecode]

/-- The row whose `OPC` is this byte, if any (R130: "the row ... with OPC = W0[31:24]"). -/
def Opcode.ofNumber (b : Byte) : Option Opcode := Opcode.all.find? fun o => o.number == b

/-- Column `match` of R103. -/
def Opcode.pattern (o : Opcode) : Word := o.number ++ (0 : Byte) ++ (0 : BitVec 16)

/-- Column `mask` of R103: the bits outside the operand fields must equal the pattern's. -/
def Opcode.mask : Opcode → Word
  | .csrrd | .csrwr | .crcCheck => 0xFF00FFFF
  | .clsKind => 0xFFFFFFE0
  | .reset | .anchor | .detTest | .runDetect | .sliceBit | .sliceFrame | .clsFruit | .validate
  | .nextcomb | .correct | .runDecode => 0xFFFFFFFF

/-- The number of operand words, "a function of `OPC` alone" (R101). -/
def Opcode.operandWords : Opcode → Nat
  | .reset | .csrrd | .crcCheck | .clsKind | .validate | .correct => 0
  | .csrwr | .runDetect | .sliceFrame | .clsFruit | .nextcomb | .runDecode => 1
  | .detTest => 2
  | .sliceBit => 3
  | .anchor => 5

/-- The opcode of a command. -/
def Instr.opcode : Instr → Opcode
  | .reset => .reset
  | .csrrd _ => .csrrd
  | .csrwr _ _ => .csrwr
  | .anchor _ _ _ => .anchor
  | .crcCheck _ => .crcCheck
  | .detTest _ _ => .detTest
  | .runDetect _ => .runDetect
  | .sliceBit _ _ _ => .sliceBit
  | .sliceFrame _ => .sliceFrame
  | .clsKind _ => .clsKind
  | .clsFruit _ => .clsFruit
  | .validate => .validate
  | .nextcomb _ => .nextcomb
  | .correct => .correct
  | .runDecode _ => .runDecode

/-- Field `OPC` of a command word (R100). -/
def fieldOpc (w : Word) : Byte := w.extractLsb' 24 8

/-- Field `A` of a command word (R100). -/
def fieldA (w : Word) : Byte := w.extractLsb' 16 8

/-- Field `B[4:0]` of a command word (R100, R102). -/
def fieldHdr (w : Word) : BitVec 5 := w.extractLsb' 0 5

/-- Operand kind `U64`: low word first (R102). -/
def operandU64 (lo hi : Word) : DWord := hi ++ lo

/-- Why a list of words is no command. -/
inductive DecodeError where
  /-- No command word at all. -/
  | noCommandWord
  /-- No legal spelling of any command (R104): `Fault(0xF0)`. -/
  | illegalCommand (w0 : Word)
  /-- A legal command word with fewer operand words behind it than R101 gives it (log 5). -/
  | missingOperands (w0 : Word)
  deriving DecidableEq, Repr

/-- Takes the operand words of a command whose word is legal (R102). -/
def takeOperands (o : Opcode) (w : Word) (ops : List Word) : Except DecodeError (Instr × List Word) :=
  match o, ops with
  | .reset, rest => .ok (.reset, rest)
  | .csrrd, rest => .ok (.csrrd (fieldA w), rest)
  | .csrwr, data :: rest => .ok (.csrwr (fieldA w) data, rest)
  | .anchor, secsLo :: secsHi :: frac :: idxLo :: idxHi :: rest =>
    .ok (.anchor (operandU64 secsLo secsHi) frac (operandU64 idxLo idxHi), rest)
  | .crcCheck, rest => .ok (.crcCheck (fieldA w), rest)
  | .detTest, j :: n :: rest => .ok (.detTest j n, rest)
  | .runDetect, n :: rest => .ok (.runDetect n, rest)
  | .sliceBit, e0 :: e1 :: ref :: rest => .ok (.sliceBit e0 e1 ref, rest)
  | .sliceFrame, n :: rest => .ok (.sliceFrame n, rest)
  | .clsKind, rest => .ok (.clsKind (fieldHdr w), rest)
  | .clsFruit, n :: rest => .ok (.clsFruit n, rest)
  | .validate, rest => .ok (.validate, rest)
  | .nextcomb, x :: rest => .ok (.nextcomb x, rest)
  | .correct, rest => .ok (.correct, rest)
  | .runDecode, n :: rest => .ok (.runDecode n, rest)
  | .csrwr, _ | .anchor, _ | .detTest, _ | .runDetect, _ | .sliceBit, _ | .sliceFrame, _
  | .clsFruit, _ | .nextcomb, _ | .runDecode, _ => .error (.missingOperands w)

/-- The decoder: one command from the front of a list of words, with the words behind it (R100, R101, R104). An
illegal command word takes no operand words. -/
def decode : List Word → Except DecodeError (Instr × List Word)
  | [] => .error .noCommandWord
  | w :: ops =>
    match Opcode.ofNumber (fieldOpc w) with
    | none => .error (.illegalCommand w)
    | some o => if w &&& o.mask = o.pattern then takeOperands o w ops else .error (.illegalCommand w)

/-- A command word from its three fields (R100). -/
def commandWord (o : Opcode) (a : Byte) (b : BitVec 16) : Word := o.number ++ a ++ b

/-- The low and the high word of a 64-bit operand (R102). -/
def lowWord (v : DWord) : Word := v.extractLsb' 0 32

/-- See `lowWord`. -/
def highWord (v : DWord) : Word := v.extractLsb' 32 32

/-- The encoder: `W0` followed by the operand words in the order of R103. -/
def encode : Instr → List Word
  | .reset => [commandWord .reset 0 0]
  | .csrrd csr => [commandWord .csrrd csr 0]
  | .csrwr csr data => [commandWord .csrwr csr 0, data]
  | .anchor secs frac idx =>
    [commandWord .anchor 0 0, lowWord secs, highWord secs, frac, lowWord idx, highWord idx]
  | .crcCheck length => [commandWord .crcCheck length 0]
  | .detTest j n => [commandWord .detTest 0 0, j, n]
  | .runDetect n => [commandWord .runDetect 0 0, n]
  | .sliceBit e0 e1 ref => [commandWord .sliceBit 0 0, e0, e1, ref]
  | .sliceFrame n => [commandWord .sliceFrame 0 0, n]
  | .clsKind hdr => [commandWord .clsKind 0 ((0 : BitVec 11) ++ hdr)]
  | .clsFruit n => [commandWord .clsFruit 0 0, n]
  | .validate => [commandWord .validate 0 0]
  | .nextcomb x => [commandWord .nextcomb 0 0, x]
  | .correct => [commandWord .correct 0 0]
  | .runDecode n => [commandWord .runDecode 0 0, n]

/-- `count` words of a number whose bit 0 is the least significant bit of the first word. -/
def wordsFrom : Nat → Nat → List Word
  | 0, _ => []
  | count + 1, w => BitVec.ofNat 32 w :: wordsFrom count (w >>> 32)

/-- The six words (a command word and five operand words, the longest command) of an instruction of which the low
`nbits` bits are given and the rest are 0. -/
def tableWords (nbits w : Nat) : List Word := wordsFrom 6 (w % 2 ^ nbits)

/-- What the decoder reads from an instruction given as spec/opcode_table.json numbers its bits. -/
def decodeTableWord (nbits w : Nat) : Option Instr :=
  match decode (tableWords nbits w) with
  | .ok (i, _) => some i
  | .error _ => none

end Sys2Proof
end

