-- ==== Sys2Proof/Config.lean ====
section
/-! DEFINITION. What an implementation fixes: the build parameters the spec gives the step as arguments
(00_scope.md R5, decisions D5 and D33), and the free values of the number system. -/

namespace Sys2Proof

/-- The build parameters (R5). No step changes them. OPEN in the spec: a statement about every state is a statement
about every value of them (DESIGN CHOICE, log 3). -/
structure Config where
  /-- `SPC`, samples per chip. -/
  spc : Nat
  /-- `SAMPLE_RATE`, samples per second; read by the timestamp rule only (R172). -/
  sampleRate : Nat
  /-- `PARITY_TABLE`, written `TBL` (R46); read-only and not reachable by CSRRD. -/
  parityTable : Vector Word24 112
  deriving DecidableEq, Repr

/-- "positive integer": both open numbers are at least 1 (R5). -/
def Config.wf (c : Config) : Bool := decide (0 < c.spc) && decide (0 < c.sampleRate)

/-- The four rounding operations of `NUM` (R8), naming which of them made a NaN. -/
inductive NumOp where
  | add | sub | mul | div
  deriving DecidableEq, Repr

/-- FREE VALUE (log 4): the sign bit of the NaN that an operation makes from these operand patterns. R8 names IEEE 754
and states no bit pattern of a NaN result. Nothing evaluates it. -/
opaque Config.nanSign : NumOp → Word → Word → Bool

/-- FREE VALUE (log 4): the fraction field of that NaN; an all-zero fraction would be an infinity, so the model reads
it as the fraction 1 (`Machine.Fp32.nanWord`), and every NaN pattern stays possible. -/
opaque Config.nanFraction : NumOp → Word → Word → BitVec 23

end Sys2Proof
end

