-- ==== Sys2Proof/Machine/State.lean ====
section
/-! DEFINITION. The state: every CSR of 10_state.md R21 as a field, the build parameters (R5), the response of the last
command (R105) and the host calls still to be executed (R3, R12). Reset values: R49, R311. -/

namespace Sys2Proof.Machine

/-- The document's `frame_kind`, register KIND: 0 = Short, 1 = Long (R31). Registers with a legal range are
held in types of exactly that range (DEDUCED, log 11). -/
inductive FrameKind where
  | short | long
  deriving DecidableEq, Repr

/-- The five flags of STATUS (R45). -/
structure Status where
  /-- Bit 0: set by any `raise Fault`, cleared by reset only. -/
  fault : Bool
  /-- Bit 1: a legal CSRWR to THRESH_RATIO has happened since reset. -/
  cfgValid : Bool
  /-- Bit 2: an ANCHOR has happened since reset. -/
  anchorValid : Bool
  /-- Bit 3: the last burst had a time. -/
  tsValid : Bool
  /-- Bit 4: the last fruit scan found a second preamble. -/
  fruited : Bool
  deriving DecidableEq, Repr

/-- One pair of a window: amplitude and local reference level, binary32 patterns (R71). -/
structure Sample where
  amplitude : Word
  reference : Word
  deriving DecidableEq, Repr

/-- A window of `N` pairs, index 0 first (R71). The core has no byte-addressed memory (DEDUCED, log 18). -/
abbrev Window := List Sample

/-- One host call: a command word, its operand words and the window presented with them (R3, R100). A command that
takes no window leaves the window unread (DEDUCED, log 12). -/
structure HostCall where
  words : List Word
  window : Window
  deriving DecidableEq, Repr

/-- The response of a command (R105). -/
structure Response where
  code : Byte
  data : Word
  deriving DecidableEq, Repr

/-- The outcome codes a command ends with, and the refusal (R106). -/
inductive Code where
  | ok | insufficientLookahead | noBurst | burstFound | candidateRejected
  | accepted | correctedAndAccepted
  | allZeroFrame | fruitedFrame | lowConfidenceOverLimit | untrustedShortFrame | parityFailed
  | tooManyLowConfidenceBits | unsolvable | ambiguousCorrection
  | noErrorPresent | singleSolutionFound | notFruited
  | refusedFaulted
  deriving DecidableEq, Repr

/-- The fault codes (R106, R282). A fault of the core is a NEXT state (R283), not a `Fault` of this model. -/
inductive FaultCode where
  | illegalCommand | badOperand | notConfigured | windowLength
  deriving DecidableEq, Repr

/-- Why the model stops on a step that reads what does not exist. -/
inductive Fault where
  /-- A window read at an index outside `0 .. N-1` (R71, R75). Raised by DET.TEST, RUN.DETECT, SLICE.FRAME, CLS.FRUIT and
  RUN.DECODE when a guard of R75 let such a read through; it never does for a positive SPC. SAFE (log 10). -/
  | windowIndex
  deriving DecidableEq, Repr

/-- Why the model gives a step no meaning. -/
inductive Refusal where
  /-- An instruction without a meaning, rejected in its arm of `exec`. SAFE. No arm does. -/
  | notModelled (mnemonic : String)
  /-- A host call with no command word, or with fewer operand words than R101 gives its command: no command of the
  spec. Raised by `step` only, never by an instruction's meaning. SAFE (log 5). -/
  | incompleteCall
  deriving DecidableEq, Repr

/-- The state of one core instance (R20, R21), with its build parameters and its interface to the host. -/
structure State where
  /-- `SPC`, `SAMPLE_RATE`, `PARITY_TABLE` (R5); no step changes it. -/
  config : Config
  /-- THRESH_RATIO, 0x01 (R23). -/
  threshRatio : Word
  /-- LONG_MASK, 0x02 (R24). -/
  longMask : Word
  /-- NOCORR_MASK, 0x03 (R25). -/
  nocorrMask : Word
  /-- SLICE_LOW, 0x04 (R26). -/
  sliceLow : Word
  /-- SLICE_HIGH, 0x05 (R26). -/
  sliceHigh : Word
  /-- SLICE_STRONG, 0x06 (R26). -/
  sliceStrong : Word
  /-- SPREAD_RATIO, 0x07 (R27). -/
  spreadRatio : Word
  /-- LCB_LIMIT, 0x08, 0 to 24 (R28). -/
  lcbLimit : Fin 25
  /-- ABS_COUNT, 0x10 and 0x11 (R29). -/
  absCount : DWord
  /-- ANCHOR_SECS, 0x12 and 0x13 (R30). -/
  anchorSecs : DWord
  /-- ANCHOR_FRAC, 0x14 (R30). -/
  anchorFrac : Word
  /-- ANCHOR_IDX, 0x15 and 0x16 (R30). -/
  anchorIdx : DWord
  /-- KIND, 0x20 (R31). -/
  kind : FrameKind
  /-- REF_LEVEL, 0x21 (R32). -/
  refLevel : Word
  /-- BURST_OFFSET, 0x22 (R33). -/
  burstOffset : Word
  /-- LCB_TOTAL, 0x23, 0 to 112 (R34). -/
  lcbTotal : Fin 113
  /-- FB0 .. FB13, 0x30 + n (R35). -/
  fb : Vector Byte 14
  /-- LCB_POS0 .. LCB_POS23, 0x40 + n, each 0 to 111 (R36). -/
  lcbPos : Vector (Fin 112) 24
  /-- OUTCOME, 0x60 (R38). -/
  outcome : Byte
  /-- CONSUMED, 0x61 (R39). -/
  consumed : Word
  /-- PRODUCED, 0x62 (R39). -/
  produced : Word
  /-- TS_SECS, 0x63 and 0x64 (R40). -/
  tsSecs : DWord
  /-- TS_FRAC, 0x65 (R40). -/
  tsFrac : Word
  /-- SYNDROME, 0x67 (R42). -/
  syndrome : Word24
  /-- RES0, 0x68 (R43). -/
  res0 : Word
  /-- RES1, 0x69 (R43); no command writes it. -/
  res1 : Word
  /-- FAULT_CODE, 0x6A (R44). -/
  faultCode : Byte
  /-- STATUS, 0x6B (R45). -/
  status : Status
  /-- The response of the last command (R105); none before the first (log 2). -/
  response : Option Response
  /-- The host calls not yet executed, the next one first (log 1). -/
  calls : List HostCall
  deriving DecidableEq, Repr

/-- The reset state of a core with these build parameters (R49, R311), with no call pending and none answered. -/
def State.resetFor (c : Config) : State where
  config := c
  threshRatio := 0x00000000
  longMask := 0x00330000
  nocorrMask := 0x00000000
  sliceLow := 0x3F000000
  sliceHigh := 0x40000000
  sliceStrong := 0x3F000000
  spreadRatio := 0x40000000
  lcbLimit := 4
  absCount := 0
  anchorSecs := 0
  anchorFrac := 0
  anchorIdx := 0
  kind := .short
  refLevel := 0
  burstOffset := 0
  lcbTotal := 0
  fb := Vector.replicate 14 0
  lcbPos := Vector.replicate 24 0
  outcome := 0x00
  consumed := 0
  produced := 0
  tsSecs := 0
  tsFrac := 0
  syndrome := 0
  res0 := 0
  res1 := 0
  faultCode := 0x00
  status := ⟨false, false, false, false, false⟩
  response := none
  calls := []

/-- The machine right after reset (R310), with the build parameters of `referenceConfig` (log 3). -/
def State.reset : State := State.resetFor referenceConfig

end Sys2Proof.Machine
end

