-- ==== Sys2Proof/Machine/Params.lean ====
section
/-! DEFINITION. The constants of 00_scope.md R5 and the offsets R6 derives from `SPC`, in samples. -/

namespace Sys2Proof.Machine

/-- `T11_LCB_REJECT` (R5, R220 step 3). -/
def t11LcbReject : Nat := 10

/-- `P[0..3]`: the four preamble pulses from the burst offset (R6, R160). -/
def pulseOffsets (spc : Nat) : List Nat := [0, 2 * spc, 7 * spc, 9 * spc]

/-- `SIL_A` then `SIL_B`, both ranges inclusive (R6, R166). -/
def silenceOffsets (spc : Nat) : List Nat :=
  List.range' (3 * spc) (3 * spc + 1) ++ List.range' (10 * spc) (5 * spc + 1)

/-- `DET_SPAN`: the largest offset from a candidate that the detector test reads (R6). -/
def detSpan (spc : Nat) : Nat := 16 * spc

/-- Chip `c` of data bit `k`, as an offset from the burst offset; `DATA0` is chip 0 of bit 0 (R6, R192). -/
def chipOffset (spc k c : Nat) : Nat := (16 + 2 * k + c) * spc

/-- `FRAME_SPAN`: a worst-case frame, preamble included (R6). -/
def frameSpan (spc : Nat) : Nat := 240 * spc

/-- `LOOK`: the samples that must exist from a candidate for it to be eligible (R6, R170). -/
def lookahead (spc : Nat) : Nat := 241 * spc

/-- `len(kind)`: `SHORT_BITS` or `LONG_BITS` (R5, R9). -/
def kindLen : FrameKind → Nat
  | .short => 56
  | .long => 112

/-- `span(kind)` (R6): 128 SPC for Short, 240 SPC for Long. -/
def kindSpan (spc : Nat) (kind : FrameKind) : Nat := (16 + 2 * kindLen kind) * spc

end Sys2Proof.Machine
end

