-- ==== Sys2Proof/Machine/Flags.lean ====
section
/-! DEFINITION. The STATUS register (10_state.md R45): its word and the one way each flag is written. -/

namespace Sys2Proof.Machine

/-- A flag as a stored bit (R7). -/
def flagBit (b : Bool) (position : Nat) : Word := if b then BitVec.twoPow 32 position else 0

/-- STATUS as CSRRD reads it: five flags, bits 31:5 zero (R45). -/
def statusWord (f : Status) : Word :=
  flagBit f.fault 0 ||| flagBit f.cfgValid 1 ||| flagBit f.anchorValid 2 ||| flagBit f.tsValid 3 |||
    flagBit f.fruited 4

/-- `STATUS.FAULT <- 1` (R283). -/
def setFaultFlag (s : State) : State :=
  { s with status := { s.status with fault := true } }

/-- `STATUS.CFG_VALID <- 1` (R133). -/
def setCfgValid (s : State) : State :=
  { s with status := { s.status with cfgValid := true } }

/-- `STATUS.ANCHOR_VALID <- 1` (R134). -/
def setAnchorValid (s : State) : State :=
  { s with status := { s.status with anchorValid := true } }

/-- `STATUS.TS_VALID <- b` (R172). -/
def setTsValid (b : Bool) (s : State) : State :=
  { s with status := { s.status with tsValid := b } }

/-- `STATUS.FRUITED <- b` (R214, R260). -/
def setFruited (b : Bool) (s : State) : State :=
  { s with status := { s.status with fruited := b } }

end Sys2Proof.Machine
end

