-- ==== Sys2Proof/Machine/Fp32.lean ====
section
/-! DEFINITION. The number system `NUM` (00_scope.md R8, decision D4): IEEE 754 binary32, every operation computed
exactly and rounded once to nearest, ties to even. A register or a sample holds the 32-bit pattern (R21, R74); a value
is computed with in the unpacked form `Fp32`. The rules of the format that R8 takes over from IEEE 754 without
repeating them (gradual underflow, overflow to infinity, signs of zero, which operations give a NaN) are PRESUMED,
log 8; the pattern of a NaN result is a free value, log 4. -/

namespace Sys2Proof.Machine

/-- A binary32 value. `fin neg m e` is `(-1)^neg * m * 2^e`. -/
inductive Fp32 where
  | nan (pattern : Word)
  | inf (neg : Bool)
  | fin (neg : Bool) (m : Nat) (e : Int)
  deriving DecidableEq, Repr

/-- The value of a bit pattern: sign in bit 31, exponent in 30:23, fraction in 22:0 (R74). -/
def Fp32.ofBits (w : Word) : Fp32 :=
  let neg := w.getLsbD 31
  let ex := (w.extractLsb' 23 8).toNat
  let fr := (w.extractLsb' 0 23).toNat
  if ex = 255 then (if fr = 0 then .inf neg else .nan w)
  else if ex = 0 then .fin neg fr (-149)
  else .fin neg (2 ^ 23 + fr) ((ex : Int) - 150)

/-- The pattern of a value (R74); defined for the values the operations below give. -/
def Fp32.toBits : Fp32 → Word
  | .nan w => w
  | .inf neg => BitVec.ofNat 32 ((if neg then 2 ^ 31 else 0) + 255 * 2 ^ 23)
  | .fin neg m e =>
    BitVec.ofNat 32 ((if neg then 2 ^ 31 else 0) +
      (if m < 2 ^ 23 then m else (e + 150).toNat * 2 ^ 23 + (m - 2 ^ 23)))

/-- The NaN an operation gives on these operands: a free pattern (log 4). -/
def Fp32.nanWord (op : NumOp) (a b : Word) : Word :=
  let fr := Config.nanFraction op a b
  BitVec.ofBool (Config.nanSign op a b) ++ (0xFF : Byte) ++ (if fr = 0 then 1 else fr)

/-- A NaN result (log 4). -/
def Fp32.freeNan (op : NumOp) (a b : Fp32) : Fp32 := .nan (Fp32.nanWord op a.toBits b.toBits)

/-- Is the value a NaN? -/
def Fp32.isNan : Fp32 → Bool
  | .nan _ => true
  | .inf _ | .fin _ _ _ => false

/-- Is the value finite (neither a NaN nor an infinity)? -/
def Fp32.isFinite : Fp32 → Bool
  | .fin _ _ _ => true
  | .nan _ | .inf _ => false

/-- The quotient `num / den` rounded to the nearest natural number, ties to even (R8). -/
def roundHalfEven (num den : Nat) : Nat :=
  let a := num / den
  let r := num % den
  if den < 2 * r ∨ (2 * r = den ∧ a % 2 = 1) then a + 1 else a

/-- The exponent `k` with `2^k ≤ n / d < 2^(k+1)`, for positive `n` and `d`. -/
def floorLog2 (n d : Nat) : Int :=
  let k : Int := (n.log2 : Int) - (d.log2 : Int)
  if d <<< k.toNat ≤ n <<< (-k).toNat then k else k - 1

/-- A significand of at most 24 bits (or exactly `2^24`, after a carry) at exponent `q`, as a value; beyond the
largest finite number it is an infinity. -/
def Fp32.pack (neg : Bool) (m : Nat) (q : Int) : Fp32 :=
  if m = 2 ^ 24 then (if 103 < q then .inf neg else .fin neg (2 ^ 23) (q + 1))
  else if 104 < q then .inf neg else .fin neg m q

/-- The exact number `(-1)^neg * (n / d) * 2^e` rounded to binary32, to nearest, ties to even (R8). -/
def Fp32.roundQuotient (neg : Bool) (n d : Nat) (e : Int) : Fp32 :=
  if n = 0 then .fin neg 0 (-149) else
  let q := max (-149) (e + floorLog2 n d - 23)
  Fp32.pack neg (roundHalfEven (n <<< (e - q).toNat) (d <<< (q - e).toNat)) q

/-- A signed integer from sign and magnitude. -/
def signedInt (neg : Bool) (m : Nat) : Int := if neg then -(m : Int) else (m : Int)

/-- The integer `m * 2^(e - k)` with its sign, for `k ≤ e`. -/
def scaledInt (neg : Bool) (m : Nat) (e k : Int) : Int := signedInt neg (m <<< (e - k).toNat)

/-- The sum of two numbers that are not NaN, with the NaN of the undefined case given. -/
def Fp32.sum (undef : Fp32) : Fp32 → Fp32 → Fp32
  | .inf n, .inf n' => if n = n' then .inf n else undef
  | .inf n, .fin _ _ _ => .inf n
  | .fin _ _ _, .inf n => .inf n
  | .fin n m e, .fin n' m' e' =>
    let k := min e e'
    let x := scaledInt n m e k + scaledInt n' m' e' k
    if x = 0 then .fin (n && n') 0 (-149) else Fp32.roundQuotient (decide (x < 0)) x.natAbs 1 k
  | .nan _, _ | _, .nan _ => undef

/-- The value with its sign inverted. -/
def Fp32.neg : Fp32 → Fp32
  | .nan w => .nan w
  | .inf n => .inf !n
  | .fin n m e => .fin (!n) m e

/-- `add(a, b)` (R8). -/
def Fp32.add (a b : Fp32) : Fp32 := Fp32.sum (Fp32.freeNan .add a b) a b

/-- `sub(a, b)` (R8). -/
def Fp32.sub (a b : Fp32) : Fp32 := Fp32.sum (Fp32.freeNan .sub a b) a b.neg

/-- `mul(a, b)` (R8). -/
def Fp32.mul (a b : Fp32) : Fp32 :=
  match a, b with
  | .inf n, .inf n' => .inf (n ^^ n')
  | .inf n, .fin n' m _ => if m = 0 then Fp32.freeNan .mul a b else .inf (n ^^ n')
  | .fin n m _, .inf n' => if m = 0 then Fp32.freeNan .mul a b else .inf (n ^^ n')
  | .fin n m e, .fin n' m' e' => Fp32.roundQuotient (n ^^ n') (m * m') 1 (e + e')
  | .nan _, _ | _, .nan _ => Fp32.freeNan .mul a b

/-- `div(a, b)` (R8). -/
def Fp32.div (a b : Fp32) : Fp32 :=
  match a, b with
  | .inf _, .inf _ => Fp32.freeNan .div a b
  | .inf n, .fin n' _ _ => .inf (n ^^ n')
  | .fin n _ _, .inf n' => .fin (n ^^ n') 0 (-149)
  | .fin n m e, .fin n' m' e' =>
    if m' = 0 then (if m = 0 then Fp32.freeNan .div a b else .inf (n ^^ n'))
    else Fp32.roundQuotient (n ^^ n') m m' (e - e')
  | .nan _, _ | _, .nan _ => Fp32.freeNan .div a b

/-- `lt(a, b)`: the IEEE ordered comparison, false on a NaN, `+0 = -0` (R8). -/
def Fp32.lt : Fp32 → Fp32 → Bool
  | .inf n, .inf n' => n && !n'
  | .inf n, .fin _ _ _ => n
  | .fin _ _ _, .inf n => !n
  | .fin n m e, .fin n' m' e' =>
    let k := min e e'
    decide (scaledInt n m e k < scaledInt n' m' e' k)
  | .nan _, _ | _, .nan _ => false

/-- `gt(a, b)` (R8). -/
def Fp32.gt (a b : Fp32) : Bool := Fp32.lt b a

/-- `ge(a, b)` (R8): false on a NaN. -/
def Fp32.ge (a b : Fp32) : Bool := !a.isNan && !b.isNan && !Fp32.lt a b

/-- `ofNat(n)`: the binary32 nearest to a non-negative integer (R8). -/
def Fp32.ofNat (n : Nat) : Fp32 := Fp32.roundQuotient false n 1 0

/-- The literal 0.0. -/
def Fp32.zero : Fp32 := Fp32.ofBits 0x00000000

/-- The literal 1.0 (R8). -/
def Fp32.one : Fp32 := Fp32.ofBits 0x3F800000

/-- The literal 4.0 (R8). -/
def Fp32.four : Fp32 := Fp32.ofBits 0x40800000

end Sys2Proof.Machine
end

