-- ==== Sys2Proof/Machine/Ops.lean ====
section
/-! DEFINITION. The named operations: the presented window (20_memory.md R71), the frame bits (R73), the codes (R106),
the end of a command (R105), raising a fault (60_exceptions.md R283), the refusal of the faulted state (R284) and the
common entry of every command (40_system.md R130). -/

namespace Sys2Proof.Machine

/-- What a step answers. -/
abbrev Result := Host.Outcome State Fault Refusal

/-! ### The window -/

/-- The window presented with the call being executed (R71). -/
def presentedWindow (s : State) : Window :=
  match s.calls with
  | [] => []
  | c :: _ => c.window

/-- `WinS(j)`: defined only for `0 ≤ j < N` (R9, R71). -/
def winS (w : Window) (j : Nat) : Option Fp32 := (w[j]?).map fun p => Fp32.ofBits p.amplitude

/-- `WinR(j)`: defined only for `0 ≤ j < N` (R9, R71). -/
def winR (w : Window) (j : Nat) : Option Fp32 := (w[j]?).map fun p => Fp32.ofBits p.reference

/-! ### The frame bits -/

/-- `FBbit(k)`: bit `7 - (k mod 8)` of `FB[k div 8]` (R9, R73). -/
def frameBit (fb : Vector Byte 14) (k : Fin 112) : Bool :=
  (fb[k.val / 8]'(by omega)).getLsbD (7 - k.val % 8)

/-- `FBset(k, b)`: writes one bit, leaving the other seven of its byte (R9, R76). -/
def setFrameBit (fb : Vector Byte 14) (k : Fin 112) (b : Bool) : Vector Byte 14 :=
  let bit : Byte := BitVec.twoPow 8 (7 - k.val % 8)
  let old := fb[k.val / 8]'(by omega)
  fb.set (k.val / 8) (if b then old ||| bit else old &&& ~~~bit) (by omega)

/-- `FBflip(k)` (R9). -/
def flipFrameBit (fb : Vector Byte 14) (k : Fin 112) : Vector Byte 14 :=
  setFrameBit fb k (!frameBit fb k)

/-- The frame bit indices `0 .. len(kind) - 1`, ascending. -/
def frameIndices (kind : FrameKind) : List (Fin 112) := (List.finRange 112).take (kindLen kind)

/-- `FB0 >> 3`: message type, header value and MSG_TYPE (R41, R210, R220 step 2). -/
def msgType (fb : Vector Byte 14) : BitVec 5 := fb[0].extractLsb' 3 5

/-! ### Codes and responses -/

/-- Column `code` of R106. -/
def Code.byte : Code → Byte
  | .ok => 0x00
  | .insufficientLookahead => 0x01
  | .noBurst => 0x02
  | .burstFound => 0x03
  | .candidateRejected => 0x04
  | .accepted => 0x10
  | .correctedAndAccepted => 0x11
  | .allZeroFrame => 0x20
  | .fruitedFrame => 0x21
  | .lowConfidenceOverLimit => 0x22
  | .untrustedShortFrame => 0x23
  | .parityFailed => 0x24
  | .tooManyLowConfidenceBits => 0x25
  | .unsolvable => 0x26
  | .ambiguousCorrection => 0x27
  | .noErrorPresent => 0x28
  | .singleSolutionFound => 0x29
  | .notFruited => 0x2A
  | .refusedFaulted => 0xFF

/-- Column `code` of R106 for the faults. -/
def FaultCode.byte : FaultCode → Byte
  | .illegalCommand => 0xF0
  | .badOperand => 0xF1
  | .notConfigured => 0xF2
  | .windowLength => 0xF3

/-- Gives the response of a command; it writes no register (R105). -/
def respond (code : Byte) (data : Word) (s : State) : State :=
  { s with response := some ⟨code, data⟩ }

/-- `done(code)`: `OUTCOME <- code` and the response carries `code` (R9, R105). -/
def done (code : Code) (s : State) : State :=
  { s with outcome := code.byte, response := some ⟨code.byte, 0⟩ }

/-- The normal end of RESET, CSRWR and ANCHOR: code 0x00, OUTCOME left alone (R105). -/
def respondOk (s : State) : State := respond Code.ok.byte 0 s

/-- `raise Fault(c)` in the state BEFORE the command, which is what "discard every register write the faulting command
has made" leaves (R283): the first fault sets FAULT, FAULT_CODE and OUTCOME; in every case the response is `(c, 0)`. -/
def raiseFault (c : FaultCode) (s : State) : State :=
  respond c.byte 0
    (if s.status.fault then s
     else { setFaultFlag s with faultCode := c.byte, outcome := c.byte })

/-- The refusal of the faulted state: response `(0xFF, 0)`, no state change (R284). -/
def refuse (s : State) : State := respond Code.refusedFaulted.byte 0 s

/-! ### The common entry (R130) -/

/-- `CONSUMED <- 0; PRODUCED <- 0`, for commands with opcode 0x10 or above (R130). -/
def clearCounts (s : State) : State := { s with consumed := 0, produced := 0 }

/-- Entry of CSRWR and ANCHOR: refused while faulted (R130, R284). -/
def systemCommand (s : State) (body : Result) : Result :=
  if s.status.fault then .next (refuse s) else body

/-- Entry of a command with opcode 0x10 or above and no window (R130). -/
def plainCommand (s : State) (body : State → Result) : Result :=
  if s.status.fault then .next (refuse s) else body (clearCounts s)

/-- Entry of a command that takes a window: its operand `N` must be the presented length (R130). -/
def windowCommand (n : Word) (s : State) (body : Window → State → Result) : Result :=
  if s.status.fault then .next (refuse s)
  else if n.toNat ≠ (presentedWindow s).length then .next (raiseFault .windowLength s)
  else body (presentedWindow s) (clearCounts s)

/-- The rest of a command whose window reads gave a value; a read that was not defined stops the model (R75, log 10). -/
def withRead {α : Type} (read : Option α) (body : α → State) : Result :=
  match read with
  | none => .fault .windowIndex
  | some a => .next (body a)

/-- What a host call does that the decoder rejects (R104, R130, R284): an illegal word is `Fault(0xF0)`, or refused
while faulted; a call without all its words is no command (log 5). -/
def rejectCall (e : DecodeError) (s : State) : Result :=
  match e with
  | .illegalCommand _ =>
    if s.status.fault then .next (refuse s) else .next (raiseFault .illegalCommand s)
  | .missingOperands _ =>
    if s.status.fault then .next (refuse s) else .refused .incompleteCall
  | .noCommandWord => .refused .incompleteCall

/-- The end of a host call: the core holds no reference to it or its window any more (R72, R79). -/
def retireCall (s : State) : State := { s with calls := s.calls.tail }

/-- `retireCall` on what a command answered. -/
def retire : Result → Result
  | .next s => .next (retireCall s)
  | .fault r => .fault r
  | .refused r => .refused r

/-- A host call of these words and this window, next to be executed. -/
def presentCall (words : List Word) (window : Window) (s : State) : State :=
  { s with calls := ⟨words, window⟩ :: s.calls }

/-- `ABS_COUNT <- (ABS_COUNT + c) mod 2^64` (R29, R173, R260). -/
def advanceCount (c : Nat) (s : State) : State :=
  { s with absCount := BitVec.ofNat 64 (s.absCount.toNat + c) }

end Sys2Proof.Machine
end

