-- ==== Sys2Proof/Machine/Operands.lean ====
section
/-! DEFINITION. The operand forms and what is legal in them: the CSR map with its views and legal values (10_state.md
R21, R22), the length operand of CRC.CHECK (30_encoding.md R102), the anchor fraction (R134), the mask of NEXTCOMB
(R241). -/

namespace Sys2Proof.Machine

/-- The registers of the CSR map, one name per number of R21. -/
inductive Csr where
  | threshRatio | longMask | nocorrMask | sliceLow | sliceHigh | sliceStrong | spreadRatio | lcbLimit
  | absCountLo | absCountHi | anchorSecsLo | anchorSecsHi | anchorFrac | anchorIdxLo | anchorIdxHi
  | kind | refLevel | burstOffset | lcbTotal
  | fb (n : Fin 14)
  | lcbPos (n : Fin 24)
  | outcome | consumed | produced | tsSecsLo | tsSecsHi | tsFrac | msgType | syndrome | res0 | res1
  | faultCode | status
  deriving DecidableEq, Repr

/-- Column `number` of R21. -/
def Csr.number : Csr → Byte
  | .threshRatio => 0x01
  | .longMask => 0x02
  | .nocorrMask => 0x03
  | .sliceLow => 0x04
  | .sliceHigh => 0x05
  | .sliceStrong => 0x06
  | .spreadRatio => 0x07
  | .lcbLimit => 0x08
  | .absCountLo => 0x10
  | .absCountHi => 0x11
  | .anchorSecsLo => 0x12
  | .anchorSecsHi => 0x13
  | .anchorFrac => 0x14
  | .anchorIdxLo => 0x15
  | .anchorIdxHi => 0x16
  | .kind => 0x20
  | .refLevel => 0x21
  | .burstOffset => 0x22
  | .lcbTotal => 0x23
  | .fb n => 0x30 + BitVec.ofNat 8 n.val
  | .lcbPos n => 0x40 + BitVec.ofNat 8 n.val
  | .outcome => 0x60
  | .consumed => 0x61
  | .produced => 0x62
  | .tsSecsLo => 0x63
  | .tsSecsHi => 0x64
  | .tsFrac => 0x65
  | .msgType => 0x66
  | .syndrome => 0x67
  | .res0 => 0x68
  | .res1 => 0x69
  | .faultCode => 0x6A
  | .status => 0x6B

/-- The registers of the map before FB0, in the order of R21. -/
def Csr.beforeFrame : List Csr :=
  [.threshRatio, .longMask, .nocorrMask, .sliceLow, .sliceHigh, .sliceStrong, .spreadRatio, .lcbLimit,
   .absCountLo, .absCountHi, .anchorSecsLo, .anchorSecsHi, .anchorFrac, .anchorIdxLo, .anchorIdxHi,
   .kind, .refLevel, .burstOffset, .lcbTotal]

/-- The result registers, in the order of R21. -/
def Csr.results : List Csr :=
  [.outcome, .consumed, .produced, .tsSecsLo, .tsSecsHi, .tsFrac, .msgType, .syndrome, .res0, .res1,
   .faultCode, .status]

/-- Every register of the map, in the order of R21. -/
def Csr.all : List Csr :=
  Csr.beforeFrame ++ (List.finRange 14).map Csr.fb ++ (List.finRange 24).map Csr.lcbPos ++ Csr.results

/-- The register a number addresses; none where the number is unmapped (R21, R77). -/
def Csr.ofNumber (b : Byte) : Option Csr := Csr.all.find? fun c => c.number == b

/-- The word of a kind: 0 = Short, 1 = Long (R31). -/
def kindWord : FrameKind → Word
  | .short => 0
  | .long => 1

/-- `zext_32(CSR[csr])`: what a read returns (R21, R132); MSG_TYPE is a view of FB0 (R41). -/
def Csr.read (c : Csr) (s : State) : Word :=
  match c with
  | .threshRatio => s.threshRatio
  | .longMask => s.longMask
  | .nocorrMask => s.nocorrMask
  | .sliceLow => s.sliceLow
  | .sliceHigh => s.sliceHigh
  | .sliceStrong => s.sliceStrong
  | .spreadRatio => s.spreadRatio
  | .lcbLimit => BitVec.ofNat 32 s.lcbLimit.val
  | .absCountLo => lowWord s.absCount
  | .absCountHi => highWord s.absCount
  | .anchorSecsLo => lowWord s.anchorSecs
  | .anchorSecsHi => highWord s.anchorSecs
  | .anchorFrac => s.anchorFrac
  | .anchorIdxLo => lowWord s.anchorIdx
  | .anchorIdxHi => highWord s.anchorIdx
  | .kind => kindWord s.kind
  | .refLevel => s.refLevel
  | .burstOffset => s.burstOffset
  | .lcbTotal => BitVec.ofNat 32 s.lcbTotal.val
  | .fb n => s.fb[n].setWidth 32
  | .lcbPos n => BitVec.ofNat 32 s.lcbPos[n].val
  | .outcome => s.outcome.setWidth 32
  | .consumed => s.consumed
  | .produced => s.produced
  | .tsSecsLo => lowWord s.tsSecs
  | .tsSecsHi => highWord s.tsSecs
  | .tsFrac => s.tsFrac
  | .msgType => (Sys2Proof.Machine.msgType s.fb).setWidth 32
  | .syndrome => s.syndrome.setWidth 32
  | .res0 => s.res0
  | .res1 => s.res1
  | .faultCode => s.faultCode.setWidth 32
  | .status => statusWord s.status

/-- Legal data for a `NUM` register: finite, and in the range R21 states (R22). -/
def legalNum (ok : Fp32 → Bool) (data : Word) : Bool :=
  (Fp32.ofBits data).isFinite && ok (Fp32.ofBits data)

/-- "`> 0`" of R21. -/
def positiveNum (x : Fp32) : Bool := Fp32.gt x Fp32.zero

/-- "`≥ 0`" of R21; `-0.0` is one (DEDUCED, log 9). -/
def nonnegativeNum (x : Fp32) : Bool := Fp32.ge x Fp32.zero

/-- "`≥ 1`" of R21. -/
def atLeastOne (x : Fp32) : Bool := Fp32.ge x Fp32.one

/-- Column `legal values on CSRWR` of R21: what a CSRWR may store in this register. A register with access RO has none;
the core never narrows or clamps (R22). -/
def Csr.legal (c : Csr) (data : Word) : Bool :=
  match c with
  | .threshRatio | .sliceLow | .sliceHigh => legalNum positiveNum data
  | .sliceStrong => legalNum nonnegativeNum data
  | .spreadRatio => legalNum atLeastOne data
  | .longMask | .nocorrMask | .refLevel | .burstOffset => true
  | .lcbLimit => decide (data.toNat ≤ 24)
  | .kind => decide (data.toNat ≤ 1)
  | .lcbTotal => decide (data.toNat ≤ 112)
  | .fb _ => decide (data.toNat ≤ 255)
  | .lcbPos _ => decide (data.toNat ≤ 111)
  | .absCountLo | .absCountHi | .anchorSecsLo | .anchorSecsHi | .anchorFrac | .anchorIdxLo | .anchorIdxHi
  | .outcome | .consumed | .produced | .tsSecsLo | .tsSecsHi | .tsFrac | .msgType | .syndrome | .res0 | .res1
  | .faultCode | .status => false

/-- `CSR[csr] <- data` (R133), for data that is a legal value of the register; RO registers are never stored to. -/
def Csr.store (c : Csr) (data : Word) (s : State) : State :=
  match c with
  | .threshRatio => { s with threshRatio := data }
  | .longMask => { s with longMask := data }
  | .nocorrMask => { s with nocorrMask := data }
  | .sliceLow => { s with sliceLow := data }
  | .sliceHigh => { s with sliceHigh := data }
  | .sliceStrong => { s with sliceStrong := data }
  | .spreadRatio => { s with spreadRatio := data }
  | .lcbLimit => { s with lcbLimit := Fin.ofNat 25 data.toNat }
  | .kind => { s with kind := if data = 0 then .short else .long }
  | .refLevel => { s with refLevel := data }
  | .burstOffset => { s with burstOffset := data }
  | .lcbTotal => { s with lcbTotal := Fin.ofNat 113 data.toNat }
  | .fb n => { s with fb := s.fb.set n (data.setWidth 8) }
  | .lcbPos n => { s with lcbPos := s.lcbPos.set n (Fin.ofNat 112 data.toNat) }
  | .absCountLo | .absCountHi | .anchorSecsLo | .anchorSecsHi | .anchorFrac | .anchorIdxLo | .anchorIdxHi
  | .outcome | .consumed | .produced | .tsSecsLo | .tsSecsHi | .tsFrac | .msgType | .syndrome | .res0 | .res1
  | .faultCode | .status => s

/-- A read by number (R132); none where the number is unmapped. -/
def readCsr (b : Byte) (s : State) : Option Word := (Csr.ofNumber b).map fun c => c.read s

/-- Are the number and the data of a CSRWR legal: mapped, RW, a legal value (R133)? -/
def legalWrite (b : Byte) (data : Word) : Bool :=
  match Csr.ofNumber b with
  | none => false
  | some c => c.legal data

/-- A write by number, with the flag that a write to THRESH_RATIO sets (R133); none where it is not legal. -/
def writeCsr (b : Byte) (data : Word) (s : State) : Option State :=
  match Csr.ofNumber b with
  | none => none
  | some c =>
    if c.legal data then some (if c = .threshRatio then setCfgValid (c.store data s) else c.store data s)
    else none

/-- `A` as length: only 0x38 (56) and 0x70 (112) are legal (R102). -/
def lengthOperand (a : Byte) : Option FrameKind :=
  if a = 0x38 then some .short else if a = 0x70 then some .long else none

/-- A legal anchor fraction: neither NaN nor infinite, `0 ≤ frac < 1` (R134). -/
def legalFraction (frac : Word) : Bool :=
  (Fp32.ofBits frac).isFinite && Fp32.ge (Fp32.ofBits frac) Fp32.zero && Fp32.lt (Fp32.ofBits frac) Fp32.one

/-- A legal mask of NEXTCOMB: `x[31:24] = 0` (R241). -/
def legalMask (x : Word) : Bool := decide (x.toNat < 2 ^ 24)

end Sys2Proof.Machine
end

