-- ==== Sys2Proof/Machine/Detector.lean ====
section
/-! DEFINITION. The burst (preamble) detector of 42_burst_detector.md: the test of one candidate (R161 to R168), the scan
(R170, R171), the timestamp (R172), DET.TEST (R169) and RUN.DETECT (R173). A window read is an `Option`: none when the
index is outside the window, which the guards exclude (R75, log 10). -/

namespace Sys2Proof.Machine

/-- `Corr(a)`: the four-pulse sum, added in this order (R161). -/
def corr (spc : Nat) (w : Window) (a : Nat) : Option Fp32 := do
  let s0 ← winS w a
  let s1 ← winS w (a + 2 * spc)
  let s2 ← winS w (a + 7 * spc)
  let s3 ← winS w (a + 9 * spc)
  pure (((s0.add s1).add s2).add s3)

/-- `AvgPeak(a)` (R161). -/
def avgPeak (spc : Nat) (w : Window) (a : Nat) : Option Fp32 := do
  let c ← corr spc w a
  pure (c.div Fp32.four)

/-- Does some sample at `base + d`, for `d` in the list, satisfy `bad`? The samples are read in order up to the first
that does. -/
def anySample (w : Window) (base : Nat) (bad : Fp32 → Bool) : List Nat → Option Bool
  | [] => some false
  | d :: ds => do
    let x ← winS w (base + d)
    if bad x then pure true else anySample w base bad ds

/-- Step 5, alignment refinement with at most the given number of advances (R165). -/
def refine (spc : Nat) (w : Window) : Nat → Nat → Option Nat
  | 0, i => some i
  | n + 1, i => do
    let next ← corr spc w (i + 1)
    let here ← corr spc w i
    if next.gt here then refine spc w n (i + 1) else pure i

/-- The step at which a candidate was dropped (R107). -/
inductive RejectReason where
  | belowThreshold | stillRising | pulseMissing | spaceViolated | spreadViolated
  deriving DecidableEq, Repr

/-- Column `RES0` of R107. -/
def RejectReason.word : RejectReason → Word
  | .belowThreshold => 1
  | .stillRising => 2
  | .pulseMissing => 3
  | .spaceViolated => 4
  | .spreadViolated => 5

/-- The result of `DetTest` (R168); an accepted reference level is held as its bit pattern. -/
inductive DetResult where
  | outOfWindow
  | reject (r : RejectReason)
  | accept (i : Nat) (ref : Word)
  deriving DecidableEq, Repr

/-- Steps 6 and 7 at the refined offset `i` (R166, R167). -/
def testRefined (spc : Nat) (ratio spread : Fp32) (w : Window) (i : Nat) : Option DetResult := do
  let avg ← avgPeak spc w i
  let space := avg.div ratio
  let loud ← anySample w i (fun x => x.gt space) (silenceOffsets spc)
  if loud then pure (.reject .spaceViolated) else
  let lo := avg.div spread
  let hi := avg.mul spread
  let outside ← anySample w i (fun p => p.lt lo || p.gt hi) (pulseOffsets spc)
  if outside then pure (.reject .spreadViolated) else
  pure (.accept i avg.toBits)

/-- Steps 1 to 7 on a candidate whose span is inside the window (R162 to R167). -/
def testCandidate (spc : Nat) (ratio spread : Fp32) (w : Window) (j : Nat) : Option DetResult := do
  let level ← winR w j
  let thr := level.mul ratio
  let here ← winS w j
  if !here.gt thr then pure (.reject .belowThreshold) else
  let next ← winS w (j + 1)
  if next.gt here then pure (.reject .stillRising) else
  let missing ← anySample w j (fun x => !x.gt thr) [2 * spc, 7 * spc, 9 * spc]
  if missing then pure (.reject .pulseMissing) else
  let i ← refine spc w spc j
  testRefined spc ratio spread w i

/-- `DetTest(j)` (R168): the guard `j + 16 SPC > N - 1` comes before any read. -/
def detTest (s : State) (w : Window) (j : Nat) : Option DetResult :=
  if w.length ≤ j + detSpan s.config.spc then some .outOfWindow
  else testCandidate s.config.spc (Fp32.ofBits s.threshRatio) (Fp32.ofBits s.spreadRatio) w j

/-- An accepted candidate: its index, its refined offset, its reference level. -/
structure Acceptance where
  candidate : Nat
  offset : Nat
  ref : Word
  deriving DecidableEq, Repr

/-- The first accepted candidate among `count` indices from `j` up, if any (the loops of R171 and R213). -/
def firstAccept (s : State) (w : Window) : Nat → Nat → Option (Option Acceptance)
  | 0, _ => some none
  | count + 1, j => do
    match ← detTest s w j with
    | .accept i ref => pure (some ⟨j, i, ref⟩)
    | .outOfWindow | .reject _ => firstAccept s w count (j + 1)

/-- The result of `Scan` (R171): `noBurst c` and `burst i ref c` consume `c` samples. -/
inductive ScanResult where
  | insufficient
  | noBurst (c : Nat)
  | burst (i : Nat) (ref : Word) (c : Nat)
  deriving DecidableEq, Repr

/-- `Scan()` (R170, R171): the eligible candidates are `0 .. N - 241 SPC`. -/
def scan (s : State) (w : Window) : Option ScanResult :=
  let look := lookahead s.config.spc
  if w.length < look then some .insufficient
  else do
    match ← firstAccept s w (w.length - look + 1) 0 with
    | some a => pure (.burst a.offset a.ref (a.offset + frameSpan s.config.spc))
    | none => pure (.noBurst (w.length - look + 1))

/-- `Timestamp(i)` (R172), with ABS_COUNT as it was before the command. -/
def timestamp (i : Nat) (s : State) : State :=
  if s.status.anchorValid then
    let delta : Int := ((s.absCount.toNat + i : Nat) : Int) - (s.anchorIdx.toNat : Int)
    let rate : Int := s.config.sampleRate
    let q := delta / rate
    let r := (delta % rate).toNat
    let f := (Fp32.ofBits s.anchorFrac).add ((Fp32.ofNat r).div (Fp32.ofNat s.config.sampleRate))
    let carry := f.ge Fp32.one
    setTsValid true
      { s with
        tsSecs := BitVec.ofInt 64 ((s.anchorSecs.toNat : Int) + (if carry then q + 1 else q))
        tsFrac := (if carry then f.sub Fp32.one else f).toBits }
  else setTsValid false { s with tsSecs := 0, tsFrac := 0 }

/-- `BURST_OFFSET <- i; REF_LEVEL <- a` (R169, R173, R260). `i` is below `2^32` (R13 (a)). -/
def setBurst (i : Nat) (ref : Word) (s : State) : State :=
  { s with burstOffset := BitVec.ofNat 32 i, refLevel := ref }

/-- `CONSUMED <- c; PRODUCED <- p` (R39, R263). `c` is at most `N`, below `2^32` (R13 (a)). -/
def setCounts (c p : Nat) (s : State) : State :=
  { s with consumed := BitVec.ofNat 32 c, produced := BitVec.ofNat 32 p }

/-- The check of the detecting commands: THRESH_RATIO must have been written (R23, `Fault(0xF2)`). `before` is the
state before the command, which a fault leaves (R283). -/
def configured (before : State) (body : Result) : Result :=
  if before.status.cfgValid then body else .next (raiseFault .notConfigured before)

/-- DET.TEST j, N (R169). -/
def execDetTest (j n : Word) (s : State) : Result :=
  windowCommand n s fun w t =>
    configured s
      (withRead (detTest t w j.toNat) fun
        | .outOfWindow => done .insufficientLookahead t
        | .reject r => done .candidateRejected { t with res0 := r.word }
        | .accept i ref => done .burstFound { setBurst i ref t with res0 := 0 })

/-- RUN.DETECT N (R173). -/
def execRunDetect (n : Word) (s : State) : Result :=
  windowCommand n s fun w t =>
    configured s
      (withRead (scan t w) fun
        | .insufficient => done .insufficientLookahead (setCounts 0 0 t)
        | .noBurst c => done .noBurst (advanceCount c (setCounts c 0 t))
        | .burst i ref c =>
          done .burstFound (advanceCount c (setCounts c 1 (setBurst i ref (timestamp i t)))))

end Sys2Proof.Machine
end

