-- ==== Sys2Proof/Machine/Slicer.lean ====
section
/-! DEFINITION. The bit slicer of 43_bit_slicer.md: `SliceBit` (R190), the chips of a data bit (R192), `SliceFrame`
(R193) with the kind function of 44_frame_classifier.md R211, SLICE.BIT (R191) and SLICE.FRAME (R194). -/

namespace Sys2Proof.Machine

/-- The document's `SlicedBit`. -/
structure SlicedBit where
  value : Bool
  confident : Bool
  deriving DecidableEq, Repr

/-- `SliceBit(e0, e1, ref)` with the three factors (R190). -/
def decideBit (factorLow factorHigh factorStrong e0 e1 ref : Fp32) : SlicedBit :=
  let low := ref.mul factorLow
  let high := ref.mul factorHigh
  let in0 := low.lt e0 && e0.lt high
  let in1 := low.lt e1 && e1.lt high
  if in0 && !in1 then ⟨true, true⟩
  else if in1 && !in0 then ⟨false, true⟩
  else
    let v := e0.gt e1
    if in0 && in1 then ⟨v, false⟩
    else ⟨v, (if v then e1 else e0).lt (low.mul factorStrong)⟩

/-- `SliceBit` with the factors of SLICE_LOW, SLICE_HIGH, SLICE_STRONG (R26, R190). -/
def sliceBit (s : State) (e0 e1 ref : Fp32) : SlicedBit :=
  decideBit (Fp32.ofBits s.sliceLow) (Fp32.ofBits s.sliceHigh) (Fp32.ofBits s.sliceStrong) e0 e1 ref

/-- `Kind(hdr) = (LONG_MASK >> hdr) & 1` (R211). -/
def kindOf (mask : Word) (hdr : BitVec 5) : FrameKind :=
  if mask.getLsbD hdr.toNat then .long else .short

/-- Records a low-confidence bit: the list keeps the first 24 positions, LCB_TOTAL counts all, at most 112 (R34, R193). -/
def noteLowConfidence (k : Fin 112) (s : State) : State :=
  { s with
    lcbPos := if h : s.lcbTotal.val < 24 then s.lcbPos.set s.lcbTotal.val k h else s.lcbPos
    lcbTotal := s.lcbTotal + 1 }

/-- `one(k)` of R193 with the decision made. -/
def storeBit (k : Fin 112) (b : SlicedBit) (s : State) : State :=
  let t := { s with fb := setFrameBit s.fb k b.value }
  if b.confident then t else noteLowConfidence k t

/-- `one(k)` of R193 for a burst at `i`: the chips of bit `k` are at `i + (16 + 2k) SPC` and `i + (17 + 2k) SPC` (R192). -/
def sliceOne (w : Window) (i : Nat) (ref : Fp32) (s : State) (k : Fin 112) : Option State := do
  let e0 ← winS w (i + chipOffset s.config.spc k.val 0)
  let e1 ← winS w (i + chipOffset s.config.spc k.val 1)
  pure (storeBit k (sliceBit s e0 e1 ref) s)

/-- `one(k)` for each of these bits in turn. -/
def sliceBits (w : Window) (i : Nat) (ref : Fp32) : List (Fin 112) → State → Option State
  | [], s => some s
  | k :: ks, s => do
    let t ← sliceOne w i ref s k
    sliceBits w i ref ks t

/-- `FB0 .. FB13 <- 0; LCB_POS0 .. LCB_POS23 <- 0; LCB_TOTAL <- 0` (R193). -/
def clearFrame (s : State) : State :=
  { s with fb := Vector.replicate 14 0, lcbPos := Vector.replicate 24 0, lcbTotal := 0 }

/-- `KIND <- Kind(FB0 >> 3)` (R193). -/
def classify (s : State) : State := { s with kind := kindOf s.longMask (msgType s.fb) }

/-- `SliceFrame(i, ref)`: five header bits, the kind, then the rest of that kind's length (R193, 90_conflicts.md C7). -/
def sliceFrame (w : Window) (i : Nat) (ref : Word) (s : State) : Option State := do
  let header ← sliceBits w i (Fp32.ofBits ref) ((frameIndices .short).take 5) (clearFrame s)
  let t := classify header
  sliceBits w i (Fp32.ofBits ref) ((frameIndices t.kind).drop 5) t

/-- RES0 of SLICE.BIT: bit 0 = value, bit 1 = confident (R191). -/
def slicedWord (b : SlicedBit) : Word := flagBit b.value 0 ||| flagBit b.confident 1

/-- SLICE.BIT e0, e1, ref (R191). -/
def execSliceBit (e0 e1 ref : Word) (s : State) : Result :=
  plainCommand s fun t =>
    .next (done .ok
      { t with res0 := slicedWord (sliceBit t (Fp32.ofBits e0) (Fp32.ofBits e1) (Fp32.ofBits ref)) })

/-- SLICE.FRAME N (R194): the worst-case frame must fit whatever the kind turns out to be. -/
def execSliceFrame (n : Word) (s : State) : Result :=
  windowCommand n s fun w t =>
    if w.length < t.burstOffset.toNat + frameSpan t.config.spc then .next (done .insufficientLookahead t)
    else withRead (sliceFrame w t.burstOffset.toNat t.refLevel t) (done .ok)

end Sys2Proof.Machine
end

