-- ==== Sys2Proof/Machine/Classifier.lean ====
section
/-! DEFINITION. The frame classifier of 44_frame_classifier.md: the fruit scan (R213), CLS.KIND (R212) and CLS.FRUIT
(R214). The kind function R211 stands in Slicer.lean, which uses it. -/

namespace Sys2Proof.Machine

/-- `Fruit(i, kind)` (R213): candidates `i + 16 SPC .. i + span(kind) - 16 SPC - 1`, ascending; the accepted index if
there is one. -/
def fruit (s : State) (w : Window) (i : Nat) (kind : FrameKind) : Option (Option Nat) := do
  let hit ← firstAccept s w (kindSpan s.config.spc kind - 2 * detSpan s.config.spc) (i + detSpan s.config.spc)
  pure (hit.map fun a => a.candidate)

/-- CLS.KIND hdr (R212). -/
def execClsKind (hdr : BitVec 5) (s : State) : Result :=
  plainCommand s fun t => .next (done .ok { t with res0 := kindWord (kindOf t.longMask hdr) })

/-- CLS.FRUIT N (R214). -/
def execClsFruit (n : Word) (s : State) : Result :=
  windowCommand n s fun w t =>
    configured s
      (if w.length < t.burstOffset.toNat + kindSpan t.config.spc t.kind then
        .next (done .insufficientLookahead t)
       else withRead (fruit t w t.burstOffset.toNat t.kind) fun
        | some j => done .fruitedFrame { setFruited true t with res0 := BitVec.ofNat 32 j }
        | none => done .notFruited { setFruited false t with res0 := 0 })

end Sys2Proof.Machine
end

