-- ==== Sys2Proof/Machine/Crc.lean ====
section
/-! DEFINITION. The CRC/parity engine of 41_crc_parity.md: `Crc(len)` and CRC.CHECK. -/

namespace Sys2Proof.Machine

/-- The table segment of a kind: entry `i + (112 - len)` for frame bit `i`, so all 112 entries for Long and the upper 56
from offset 56 for Short (R150). -/
def tableSegment (table : Vector Word24 112) (kind : FrameKind) : List Word24 :=
  table.toList.drop (112 - kindLen kind)

/-- One round of the loop of R150. -/
def crcStep (fb : Vector Byte 14) (acc : Word24) (p : Fin 112 × Word24) : Word24 :=
  if frameBit fb p.1 then acc ^^^ p.2 else acc

/-- `Crc(len)` over frame contents `fb` (R150): bits `len .. 111` are not read. -/
def crc (table : Vector Word24 112) (kind : FrameKind) (fb : Vector Byte 14) : Word24 :=
  ((frameIndices kind).zip (tableSegment table kind)).foldl (crcStep fb) 0

/-- `Crc` of the frame registers. -/
def frameCrc (kind : FrameKind) (s : State) : Word24 := crc s.config.parityTable kind s.fb

/-- CRC.CHECK length (R151). The length comes from the command, not from KIND. -/
def execCrcCheck (length : Byte) (s : State) : Result :=
  plainCommand s fun t =>
    match lengthOperand length with
    | none => .next (raiseFault .badOperand s)
    | some kind => .next (done .ok { t with syndrome := frameCrc kind t })

end Sys2Proof.Machine
end

