-- ==== Sys2Proof/Machine/Corrector.lean ====
section
/-! DEFINITION. The brute-force corrector of 46_corrector.md: the subset generator (R240, R241), the enumeration order
(R242), the search (R243), CORRECT (R244). -/

namespace Sys2Proof.Machine

/-- `NextComb(x)` by the formula of R240 on natural numbers: `s = x & -x` is `x - (x & (x - 1))`, the lowest set bit.
The rule's definition, the least greater number of equal popcount, is an obligation (DEDUCED, log 14). `NextComb(0) = 0`. -/
def nextComb (x : Nat) : Nat :=
  if x = 0 then 0
  else
    let low := x - (x &&& (x - 1))
    let ripple := x + low
    ripple ||| (((x ^^^ ripple) >>> 2) / low)

/-- The masks `m, NextComb(m), ...` below `limit` (the inner loop of R242); `fuel` bounds their number. -/
def masksFrom : Nat → Nat → Nat → List Nat
  | 0, _, _ => []
  | fuel + 1, limit, m => if m < limit then m :: masksFrom fuel limit (nextComb m) else []

/-- The candidates over `k` recorded positions in the order of R242: popcount 1 to `k`, ascending within each. There are
fewer than `2^k` masks of one popcount, so the fuel is never used up. -/
def candidates (k : Nat) : List Nat :=
  (List.range k).flatMap fun p => masksFrom (2 ^ k) (2 ^ k) (2 ^ (p + 1) - 1)

/-- The positions `LCB_POS[b]` whose bit `b` of the mask is set (R242). -/
def selected : Nat → List (Fin 112) → List (Fin 112)
  | _, [] => []
  | m, p :: ps => if m % 2 = 1 then p :: selected (m / 2) ps else selected (m / 2) ps

/-- `c`: the syndrome after flipping these positions of a Long frame, by table lookups (R243). -/
def flippedSyndrome (table : Vector Word24 112) (syndrome : Word24) (ps : List (Fin 112)) : Word24 :=
  ps.foldl (fun c p => c ^^^ table[p]) syndrome

/-- The end of the search (R243). -/
inductive SearchResult where
  | unsolvable
  | single (mask : Nat)
  | ambiguous
  deriving DecidableEq, Repr

/-- The loop over the candidates of R243; `sol` is the match found so far. It stops at the second match. -/
def search (table : Vector Word24 112) (syndrome : Word24) (positions : List (Fin 112)) :
    Option Nat → List Nat → SearchResult
  | none, [] => .unsolvable
  | some m, [] => .single m
  | sol, m :: ms =>
    if flippedSyndrome table syndrome (selected m positions) = 0 then
      match sol with
      | none => search table syndrome positions (some m) ms
      | some _ => .ambiguous
    else search table syndrome positions sol ms

/-- The recorded positions the search works on, `LCB_POS[0 .. k - 1]` (R243). -/
def recordedPositions (s : State) : List (Fin 112) := s.lcbPos.toList.take s.lcbTotal.val

/-- `FBflip` at each of these positions. -/
def flipBits (fb : Vector Byte 14) (ps : List (Fin 112)) : Vector Byte 14 := ps.foldl flipFrameBit fb

/-- The document's CorrectionOutcome (R243). -/
inductive Correction where
  | noErrorPresent | tooMany | unsolvable | ambiguous | single
  deriving DecidableEq, Repr

/-- `Correct()` (R243), on a Long frame: the outcome and the state it leaves. -/
def correctFrame (s : State) : Correction × State :=
  let syn := frameCrc .long s
  let t := { s with syndrome := syn }
  if syn = 0 then (.noErrorPresent, t)
  else if s.lcbLimit.val < s.lcbTotal.val then (.tooMany, t)
  else
    match search s.config.parityTable syn (recordedPositions s) none (candidates s.lcbTotal.val) with
    | .unsolvable => (.unsolvable, t)
    | .ambiguous => (.ambiguous, t)
    | .single m => (.single, { t with fb := flipBits s.fb (selected m (recordedPositions s)), syndrome := 0 })

/-- NEXTCOMB x (R241): the result can need 25 bits and always fits RES0. -/
def execNextcomb (x : Word) (s : State) : Result :=
  plainCommand s fun t =>
    if legalMask x then .next (done .ok { t with res0 := BitVec.ofNat 32 (nextComb x.toNat) })
    else .next (raiseFault .badOperand s)

/-- The code CORRECT ends with (R244). -/
def Correction.code : Correction → Code
  | .noErrorPresent => .noErrorPresent
  | .tooMany => .tooManyLowConfidenceBits
  | .unsolvable => .unsolvable
  | .ambiguous => .ambiguousCorrection
  | .single => .singleSolutionFound

/-- CORRECT (R244): "only invoked for Long frames". -/
def execCorrect (s : State) : Result :=
  plainCommand s fun t =>
    match s.kind with
    | .short => .next (raiseFault .badOperand s)
    | .long => .next (done (correctFrame t).1.code (correctFrame t).2)

end Sys2Proof.Machine
end

