-- ==== Sys2Proof/Machine/Validator.lean ====
section
/-! DEFINITION. The frame validator of 45_frame_validator.md: `Validate()` in its six ordered steps (R220) and VALIDATE
(R221). -/

namespace Sys2Proof.Machine

/-- Step 1: are frame bits `0 .. len - 1` all 0 (R220)? -/
def allZero (kind : FrameKind) (fb : Vector Byte 14) : Bool :=
  (frameIndices kind).all fun k => !frameBit fb k

/-- The code of a correction inside the validator (R220 step 6); the corrector cannot answer NoErrorPresent there
(reading (d)), and a zero syndrome would be an accepted frame. -/
def correctionVerdict : Correction → Code
  | .tooMany => .tooManyLowConfidenceBits
  | .unsolvable => .unsolvable
  | .ambiguous => .ambiguousCorrection
  | .single => .correctedAndAccepted
  | .noErrorPresent => .accepted

/-- `Validate()` (R220): the outcome code and the state it leaves. -/
def validateFrame (s : State) : Code × State :=
  let mt := msgType s.fb
  if allZero s.kind s.fb then (.allZeroFrame, s)
  else if s.kind = .short ∧ mt ≠ 11 ∧ 0 < s.lcbTotal.val then (.untrustedShortFrame, s)
  else if mt = 11 ∧ t11LcbReject ≤ s.lcbTotal.val then (.lowConfidenceOverLimit, s)
  else
    let t := { s with syndrome := frameCrc s.kind s }
    if t.syndrome = 0 then (.accepted, t)
    else if s.kind = .short then (.parityFailed, t)
    else if s.nocorrMask.getLsbD mt.toNat then (.parityFailed, t)
    else (correctionVerdict (correctFrame t).1, (correctFrame t).2)

/-- VALIDATE (R221). -/
def execValidate (s : State) : Result :=
  plainCommand s fun t => .next (done (validateFrame t).1 (validateFrame t).2)

end Sys2Proof.Machine
end

