-- ==== Sys2Proof/Machine/Pipeline.lean ====
section
/-! DEFINITION. The whole pipeline of 47_pipeline.md: RUN.DECODE (R260 to R263). -/

namespace Sys2Proof.Machine

/-- `PRODUCED`: 1 when the outcome is 0x10 or 0x11 (R260, R262). -/
def packetCount : Code → Nat
  | .accepted | .correctedAndAccepted => 1
  | .ok | .insufficientLookahead | .noBurst | .burstFound | .candidateRejected | .allZeroFrame | .fruitedFrame
  | .lowConfidenceOverLimit | .untrustedShortFrame | .parityFailed | .tooManyLowConfidenceBits | .unsolvable
  | .ambiguousCorrection | .noErrorPresent | .singleSolutionFound | .notFruited | .refusedFaulted => 0

/-- The verdict on a sliced frame: fruited and not validated, or validated (R260). -/
def judgeFrame (hit : Option Nat) (s : State) : Code × State :=
  match hit with
  | some _ => (.fruitedFrame, setFruited true s)
  | none => validateFrame (setFruited false s)

/-- What RUN.DECODE does with a burst at `i` (R260): timestamp, registers, slicing, fruit scan, verdict. -/
def decodeBurst (w : Window) (i : Nat) (ref : Word) (s : State) : Option (Code × State) := do
  let t ← sliceFrame w i ref (setBurst i ref (timestamp i s))
  let hit ← fruit t w i t.kind
  pure (judgeFrame hit t)

/-- The end of RUN.DECODE on a burst: CONSUMED, PRODUCED, ABS_COUNT and the outcome (R260, R263). -/
def finishDecode (c : Nat) (verdict : Code × State) : State :=
  done verdict.1 (advanceCount c (setCounts c (packetCount verdict.1) verdict.2))

/-- RUN.DECODE N (R260). -/
def execRunDecode (n : Word) (s : State) : Result :=
  windowCommand n s fun w t =>
    configured s
      (match scan t w with
       | none => .fault .windowIndex
       | some .insufficient => .next (done .insufficientLookahead (setCounts 0 0 t))
       | some (.noBurst c) => .next (done .noBurst (advanceCount c (setCounts c 0 t)))
       | some (.burst i ref c) => withRead (decodeBurst w i ref t) (finishDecode c))

end Sys2Proof.Machine
end

