-- ==== Sys2Proof/Machine/System.lean ====
section
/-! DEFINITION. The system commands of 40_system.md: RESET, CSRRD, CSRWR, ANCHOR. -/

namespace Sys2Proof.Machine

/-- RESET (R131): every CSR takes its reset value, in every state. The build parameters and the host's calls are no
CSRs and stay (DEDUCED, log 13). -/
def execReset (s : State) : Result :=
  .next (respondOk { State.resetFor s.config with calls := s.calls })

/-- CSRRD csr (R132): also in the faulted state (R130, R284). -/
def execCsrrd (csr : Byte) (s : State) : Result :=
  match readCsr csr s with
  | none => .next (raiseFault .badOperand s)
  | some v => .next (respond Code.ok.byte v s)

/-- CSRWR csr, data (R133). -/
def execCsrwr (csr : Byte) (data : Word) (s : State) : Result :=
  systemCommand s
    (match writeCsr csr data s with
     | none => .next (raiseFault .badOperand s)
     | some t => .next (respondOk t))

/-- ANCHOR secs, frac, idx (R134). -/
def execAnchor (secs : DWord) (frac : Word) (idx : DWord) (s : State) : Result :=
  systemCommand s
    (if legalFraction frac then
      .next (respondOk (setAnchorValid { s with anchorSecs := secs, anchorFrac := frac, anchorIdx := idx }))
     else .next (raiseFault .badOperand s))

end Sys2Proof.Machine
end

