-- ==== Sys2Proof/Machine/Dispatch.lean ====
section
/-! DEFINITION. The meaning of each command, one arm per constructor of Instr. -/

namespace Sys2Proof.Machine

def exec (i : Instr) (s : State) : Host.Outcome State Fault Refusal :=
  match i with
  -- 40_system.md
  | .reset => Sys2Proof.Machine.execReset s
  | .csrrd csr => Sys2Proof.Machine.execCsrrd csr s
  | .csrwr csr data => Sys2Proof.Machine.execCsrwr csr data s
  | .anchor secs frac idx => Sys2Proof.Machine.execAnchor secs frac idx s
  -- 41_crc_parity.md
  | .crcCheck length => Sys2Proof.Machine.execCrcCheck length s
  -- 42_burst_detector.md
  | .detTest j n => Sys2Proof.Machine.execDetTest j n s
  | .runDetect n => Sys2Proof.Machine.execRunDetect n s
  -- 43_bit_slicer.md
  | .sliceBit e0 e1 ref => Sys2Proof.Machine.execSliceBit e0 e1 ref s
  | .sliceFrame n => Sys2Proof.Machine.execSliceFrame n s
  -- 44_frame_classifier.md
  | .clsKind hdr => Sys2Proof.Machine.execClsKind hdr s
  | .clsFruit n => Sys2Proof.Machine.execClsFruit n s
  -- 45_frame_validator.md
  | .validate => Sys2Proof.Machine.execValidate s
  -- 46_corrector.md
  | .nextcomb x => Sys2Proof.Machine.execNextcomb x s
  | .correct => Sys2Proof.Machine.execCorrect s
  -- 47_pipeline.md
  | .runDecode n => Sys2Proof.Machine.execRunDecode n s

end Sys2Proof.Machine
end

