-- ==== Sys2Proof/Machine/Step.lean ====
section
/-! DEFINITION. One step: the next host call, decoded, executed and retired (00_scope.md R3). With no call pending the
core does nothing (70_reset_and_hazards.md R310: "does nothing until commanded"). -/

namespace Sys2Proof.Machine

/-- One host call: `Config × State × Command × Window → State × Response` with all four in the state (R3, log 1). -/
def step (s : State) : Host.Outcome State Fault Refusal :=
  match s.calls with
  | [] => .next s
  | call :: _ =>
    match decode call.words with
    | .ok (i, _) => retire (exec i s)
    | .error e => retire (rejectCall e s)

/-- `s` with this instruction as its next host call, presented with the empty window, so that the next step executes
it; the operand words the table gives no bits are 0, which is the length of that window (log 6). -/
def State.withFetchWord (s : State) (nbits w : Nat) : State := presentCall (tableWords nbits w) [] s

end Sys2Proof.Machine
end

