-- ==== Sys2Proof/WellFormed.lean ====
section
/-! DEFINITION. Which commands have legal operands, as far as the command alone decides it: the conditions under which
60_exceptions.md R282 raises 0xF1 for an operand. An ill-formed command is still a legal spelling (30_encoding.md R104):
it decodes, and its meaning raises the fault. -/

namespace Sys2Proof

open Sys2Proof.Machine

/-- The command's operands are legal whatever the state (R21, R22, R102, R134, R241). -/
def Instr.wf : Instr → Bool
  | .csrrd csr => (Csr.ofNumber csr).isSome
  | .csrwr csr data => legalWrite csr data
  | .anchor _ frac _ => legalFraction frac
  | .crcCheck length => (lengthOperand length).isSome
  | .nextcomb x => legalMask x
  | .reset | .detTest _ _ | .runDetect _ | .sliceBit _ _ _ | .sliceFrame _ | .clsKind _ | .clsFruit _
  | .validate | .correct | .runDecode _ => true

end Sys2Proof
end

