-- ==== Sys2Proof/Safety.lean ====
section
/-! DEFINITION. The terms statements use: what a running core is, what a fault or an outcome leaves, the frame
invariants of 10_state.md R37, the steps of the detector test, and the invariant every step keeps. -/

namespace Sys2Proof.Machine

/-- The core accepts commands: STATUS.FAULT = 0 (R289). -/
def State.Running (s : State) : Prop := s.status.fault = false

/-- The presented window has the length the operand `N` says (R130), and the build parameters are positive (R5). -/
structure State.Presents (s : State) (n : Word) : Prop where
  length : n.toNat = (presentedWindow s).length
  config : s.config.wf = true

/-- The state `raise Fault(c)` leaves in a running core: the state before the command and the three writes of R283. -/
def faultedBy (c : Byte) (s : State) : State :=
  { s with status := { s.status with fault := true }, faultCode := c, outcome := c, response := some ⟨c, 0⟩ }

/-- The end of a command with an outcome code (R105). -/
def endedWith (c : Byte) (s : State) : State := { s with outcome := c, response := some ⟨c, 0⟩ }

/-- CONSUMED and PRODUCED (R39). -/
def counted (consumed produced : Word) (s : State) : State :=
  { s with consumed := consumed, produced := produced }

/-- The configuration registers of `t` and `u` agree (R23 to R28). -/
def SameConfiguration (t u : State) : Prop :=
  t.threshRatio = u.threshRatio ∧ t.longMask = u.longMask ∧ t.nocorrMask = u.nocorrMask ∧
    t.sliceLow = u.sliceLow ∧ t.sliceHigh = u.sliceHigh ∧ t.sliceStrong = u.sliceStrong ∧
    t.spreadRatio = u.spreadRatio ∧ t.lcbLimit = u.lcbLimit

/-- R37 (a): frame bits `len(KIND) .. 111` are 0. -/
def UpperBitsZero (s : State) : Prop :=
  ∀ k : Fin 112, kindLen s.kind ≤ k.val → frameBit s.fb k = false

/-- R37 (c): the meaningful entries of LCB_POS are strictly increasing and below `len(KIND)`; the others are 0 (R36). -/
def PositionsOrdered (s : State) : Prop :=
  (∀ a b : Fin 24, a < b → b.val < s.lcbTotal.val → s.lcbPos[a] < s.lcbPos[b]) ∧
  (∀ a : Fin 24, a.val < s.lcbTotal.val → s.lcbPos[a].val < kindLen s.kind) ∧
  (∀ a : Fin 24, s.lcbTotal.val ≤ a.val → s.lcbPos[a] = 0)

/-- What the slicer makes of data bit `k` of a burst at `i` (R190, R192); none when a chip is outside the window. -/
def chipDecision (s : State) (w : Window) (i : Nat) (ref : Word) (k : Fin 112) : Option SlicedBit :=
  match winS w (i + (16 + 2 * k.val) * s.config.spc), winS w (i + (17 + 2 * k.val) * s.config.spc) with
  | some e0, some e1 => some (sliceBit s e0 e1 (Fp32.ofBits ref))
  | _, _ => none

/-- Is data bit `k` low-confidence? -/
def isDoubtful (s : State) (w : Window) (i : Nat) (ref : Word) (k : Fin 112) : Bool :=
  match chipDecision s w i ref k with
  | some b => !b.confident
  | none => false

/-- Is candidate `j` accepted by the detector test? -/
def Accepted (s : State) (w : Window) (j : Nat) : Prop := ∃ i ref, detTest s w j = some (.accept i ref)

/-! The steps of the detector test, each as a property of the window (42_burst_detector.md R162 to R167). -/

/-- Steps 1 and 2: the sample at `j` exceeds the pulse threshold, the reference level at `j` times THRESH_RATIO (R162). -/
def Fires (s : State) (w : Window) (j : Nat) : Prop :=
  ∃ level x, winR w j = some level ∧ winS w j = some x ∧ x.gt (level.mul (Fp32.ofBits s.threshRatio)) = true

/-- Step 3 rejects: the next sample is higher (R163). -/
def StillRising (w : Window) (j : Nat) : Prop :=
  ∃ x next, winS w j = some x ∧ winS w (j + 1) = some next ∧ next.gt x = true

/-- Step 4: the three other pulses exceed the same threshold (R164). -/
def PulsesExceed (s : State) (w : Window) (j : Nat) : Prop :=
  ∃ level, winR w j = some level ∧ ∀ d ∈ [2 * s.config.spc, 7 * s.config.spc, 9 * s.config.spc],
    ∃ x, winS w (j + d) = some x ∧ x.gt (level.mul (Fp32.ofBits s.threshRatio)) = true

/-- The four-pulse sum one sample after `a` is higher than at `a` (R165). -/
def SumRises (spc : Nat) (w : Window) (a : Nat) : Prop :=
  ∃ x y, corr spc w a = some x ∧ corr spc w (a + 1) = some y ∧ y.gt x = true

/-- Step 5: the alignment of `j` advances to `i` while the sum rises, at most `SPC` times (R165). -/
def RefinesTo (spc : Nat) (w : Window) (j i : Nat) : Prop :=
  j ≤ i ∧ i ≤ j + spc ∧ (∀ a, j ≤ a → a < i → SumRises spc w a) ∧ (i < j + spc → ¬ SumRises spc w i)

/-- Step 6: no sample of the silence ranges from `i` exceeds the mean over THRESH_RATIO (R166). -/
def SilenceHolds (s : State) (w : Window) (i : Nat) (avg : Fp32) : Prop :=
  ∀ d, (3 * s.config.spc ≤ d ∧ d ≤ 6 * s.config.spc) ∨ (10 * s.config.spc ≤ d ∧ d ≤ 15 * s.config.spc) →
    ∃ x, winS w (i + d) = some x ∧ x.gt (avg.div (Fp32.ofBits s.threshRatio)) = false

/-- Step 7: the four pulses from `i` are within SPREAD_RATIO of the mean (R167). -/
def SpreadHolds (s : State) (w : Window) (i : Nat) (avg : Fp32) : Prop :=
  ∀ d ∈ pulseOffsets s.config.spc, ∃ p, winS w (i + d) = some p ∧
    p.lt (avg.div (Fp32.ofBits s.spreadRatio)) = false ∧ p.gt (avg.mul (Fp32.ofBits s.spreadRatio)) = false

/-- The operand `N` of a command that takes a window (R103). -/
def windowOperand : Instr → Option Word
  | .detTest _ n | .runDetect n | .sliceFrame n | .clsFruit n | .runDecode n => some n
  | .reset | .csrrd _ | .csrwr _ _ | .anchor _ _ _ | .crcCheck _ | .sliceBit _ _ _ | .clsKind _ | .validate
  | .nextcomb _ | .correct => none

/-- The commands that need STATUS.CFG_VALID (R282, 0xF2). -/
def needsRatio : Instr → Bool
  | .detTest _ _ | .runDetect _ | .clsFruit _ | .runDecode _ => true
  | .reset | .csrrd _ | .csrwr _ _ | .anchor _ _ _ | .crcCheck _ | .sliceBit _ _ _ | .sliceFrame _ | .clsKind _
  | .validate | .nextcomb _ | .correct => false

/-- The rational value of a finite binary32. -/
def finValue (neg : Bool) (m : Nat) (e : Int) : ℚ := (if neg then -1 else 1) * (m : ℚ) * (2 : ℚ) ^ e

/-- `r` is the non-zero rational `x` rounded to binary32, to nearest, ties to even (R8): a significand of at most 24 bits
at the finest exponent allowed, at most half a unit away (a quarter below a power of two, where the spacing halves),
even on a tie; or an infinity from `2^128 - 2^103` up. -/
def Rounds (x : ℚ) : Fp32 → Prop
  | .nan _ => False
  | .inf neg => ((2 : ℚ) ^ 25 - 1) * 2 ^ 103 ≤ |x| ∧ (neg = true ↔ x < 0)
  | .fin neg m q =>
    m < 2 ^ 24 ∧ -149 ≤ q ∧ q ≤ 104 ∧ (q = -149 ∨ 2 ^ 23 ≤ m) ∧ (neg = true ↔ x < 0) ∧
    |x - finValue neg m q| ≤ (2 : ℚ) ^ q / 2 ∧
    (|x - finValue neg m q| = (2 : ℚ) ^ q / 2 → m % 2 = 0) ∧
    (m = 2 ^ 23 → -149 < q → |finValue neg m q| - |x| ≤ (2 : ℚ) ^ q / 4)

/-- What holds at reset and after every step, for the states a core can be in. -/
structure State.Inv (s : State) : Prop where
  /-- R5: SPC and SAMPLE_RATE are positive. -/
  config : s.config.wf = true
  /-- R23: THRESH_RATIO is a legal ratio once CFG_VALID is set, and `+0.0` before. -/
  ratio : if s.status.cfgValid then Csr.threshRatio.legal s.threshRatio = true else s.threshRatio = 0
  /-- R21, R22: the other `NUM` configuration registers hold legal values. -/
  sliceLow : Csr.sliceLow.legal s.sliceLow = true
  sliceHigh : Csr.sliceHigh.legal s.sliceHigh = true
  sliceStrong : Csr.sliceStrong.legal s.sliceStrong = true
  spreadRatio : Csr.spreadRatio.legal s.spreadRatio = true
  /-- R30: the anchor fraction is legal, and without an anchor the anchor registers are zero. -/
  anchorFrac : legalFraction s.anchorFrac = true
  noAnchor : s.status.anchorValid = false → s.anchorSecs = 0 ∧ s.anchorFrac = 0 ∧ s.anchorIdx = 0
  /-- R40, R45: TS_VALID only with an anchor, and a time of zero without it. -/
  tsAnchor : s.status.tsValid = true → s.status.anchorValid = true
  noTime : s.status.tsValid = false → s.tsSecs = 0 ∧ s.tsFrac = 0
  /-- R39: PRODUCED is 0 or 1. -/
  produced : s.produced = 0 ∨ s.produced = 1
  /-- R43: no command writes RES1. -/
  res1 : s.res1 = 0
  /-- R44, R106, R284: FAULT_CODE is 0 while STATUS.FAULT is 0 and a fault's code otherwise, and OUTCOME then stays that
  code; an outcome that is not a fault is a code of R106, never the refusal's. -/
  fault : if s.status.fault then ∃ c : FaultCode, s.faultCode = c.byte ∧ s.outcome = c.byte
    else s.faultCode = 0 ∧ ∃ c : Code, c ≠ .refusedFaulted ∧ s.outcome = c.byte

end Sys2Proof.Machine
end

