-- ==== Sys2Proof/Certificates/Slice0/Obligations.lean ====
section
/-! DEFINITION. The statements for the provers, from the numbered rules of spec/. A statement about a command assumes a
running core (STATUS.FAULT = 0); what a faulted core does is `FaultedCoreRefuses`. `s` ranges over every state, so over
every SPC, SAMPLE_RATE and PARITY_TABLE (log 3). -/

open Sys2Proof Sys2Proof.Machine

/-! ### Reset, the step, decoding -/

/-- R49: every CSR holds its reset value after reset, whatever the build parameters. -/
def Obligations.ResetHoldsStatedValues : Prop :=
  ∀ (c : Config) (r : Csr), r.read (State.resetFor c) =
    (if r = .longMask then 0x00330000
     else if r = .sliceLow ∨ r = .sliceStrong then 0x3F000000
     else if r = .sliceHigh ∨ r = .spreadRatio then 0x40000000
     else if r = .lcbLimit then 4
     else 0)

/-- R131: RESET in every state, and the words with its opcode that are not RESET. That RESET keeps the host's pending
calls is the model's reading (log 13), and that a step drops the whole call, words behind the command word included, is
the model's choice (log 1, log 6). -/
def Obligations.ResetCommand : Prop :=
  encode .reset = [0x01000000] ∧
  (∀ s : State, exec .reset s =
    .next { State.resetFor s.config with response := some ⟨0x00, 0⟩, calls := s.calls }) ∧
  (∀ (s : State) (w : Word) (ops : List Word) (window : Window) (later : List HostCall),
    fieldOpc w = 0x01 → w ≠ 0x01000000 → s.calls = ⟨w :: ops, window⟩ :: later →
    step s = .next (if s.status.fault then { s with response := some ⟨0xFF, 0⟩, calls := later }
      else { faultedBy 0xF0 s with calls := later }))

/-- R3, R78, R130: a step executes the command its next host call decodes to, then drops the call; without a call it
changes nothing. The queue of host calls is the model's choice (log 1), and so is that the words `extra` behind the
command are dropped with its call (log 6). -/
def Obligations.StepRunsTheDecodedCommand : Prop :=
  (∀ s : State, s.calls = [] → step s = .next s) ∧
  (∀ (s : State) (call : HostCall) (later : List HostCall) (i : Instr) (extra : List Word),
    s.calls = call :: later → decode call.words = .ok (i, extra) →
    step s = (match exec i s with
      | .next t => .next { t with calls := t.calls.tail }
      | .fault r => .fault r
      | .refused r => .refused r))

/-- R104: what is no legal spelling faults with 0xF0 and takes no operand words; an illegal operand of a legal spelling
faults with 0xF1. The faults are those of a running core. That the step drops the whole call, the words `ops` behind the
illegal word included, is the model's choice (log 1, log 6). -/
def Obligations.IllegalEncodingsFault : Prop :=
  (∀ (s : State) (w : Word) (ops : List Word) (window : Window) (later : List HostCall),
    s.Running → s.calls = ⟨w :: ops, window⟩ :: later →
    (∀ o ∈ Opcode.all, w &&& o.mask ≠ o.pattern) →
    step s = .next { faultedBy 0xF0 s with calls := later }) ∧
  (∀ o ∈ Opcode.all, (0x00000000 : Word) &&& o.mask ≠ o.pattern ∧ (0xFFFFFFFF : Word) &&& o.mask ≠ o.pattern) ∧
  (∀ (s : State) (a : Byte), s.Running → a ≠ 0x38 → a ≠ 0x70 →
    exec (.crcCheck a) s = .next (faultedBy 0xF1 s)) ∧
  (∀ (s : State) (a : Byte) (data : Word), s.Running → Csr.ofNumber a = none →
    exec (.csrrd a) s = .next (faultedBy 0xF1 s) ∧ exec (.csrwr a data) s = .next (faultedBy 0xF1 s))

/-- R103, R104: the decoder calls a command word illegal exactly when it matches no row of the opcode map. -/
def Obligations.IllegalIsMatchingNoRow : Prop :=
  ∀ (w : Word) (ops : List Word),
    decode (w :: ops) = .error (.illegalCommand w) ↔ ∀ o ∈ Opcode.all, w &&& o.mask ≠ o.pattern

/-- R100 to R103: decoding an encoded command gives it back, with the words behind it. -/
def Obligations.DecodeOfEncode : Prop :=
  ∀ (i : Instr) (later : List Word), decode (encode i ++ later) = .ok (i, later)

/-- R100 to R103: a list of words that decodes is the encoding of what it decodes to, so each word has one meaning. -/
def Obligations.EncodeOfDecode : Prop :=
  ∀ (words later : List Word) (i : Instr), decode words = .ok (i, later) → words = encode i ++ later

/-- R110, R132 to R134, R212, R241: the words the spec writes out decode to the commands it names. -/
def Obligations.WrittenWordsDecode : Prop :=
  decode [0x02600000] = .ok (.csrrd 0x60, []) ∧
  decode [0x03010000, 0x40000000] = .ok (.csrwr 0x01 0x40000000, []) ∧
  decode [0x04000000, 0x6553F100, 0x00000000, 0x3E800000, 0x000003E8, 0x00000000] =
    .ok (.anchor 1700000000 0x3E800000 1000, []) ∧
  decode [0x10700000] = .ok (.crcCheck 112, []) ∧
  decode [0x20000000, 0x0000000A, 0x0000012C] = .ok (.detTest 10 300, []) ∧
  decode [0x30000000, 0x40800000, 0x00000000, 0x40800000] = .ok (.sliceBit 0x40800000 0 0x40800000, []) ∧
  decode [0x40000011] = .ok (.clsKind 17, []) ∧
  decode [0x50000000] = .ok (.validate, []) ∧
  decode [0x60000000, 0x00000003] = .ok (.nextcomb 3, []) ∧
  decode [0x70000000, 0x0000012C] = .ok (.runDecode 300, [])

/-! ### System commands -/

/-- R21, R77: the number of every register, what a read of it returns, and that every other number is unmapped. -/
def Obligations.CsrMapReads : Prop :=
  ∀ s : State,
    readCsr 0x01 s = some s.threshRatio ∧ readCsr 0x02 s = some s.longMask ∧ readCsr 0x03 s = some s.nocorrMask ∧
    readCsr 0x04 s = some s.sliceLow ∧ readCsr 0x05 s = some s.sliceHigh ∧ readCsr 0x06 s = some s.sliceStrong ∧
    readCsr 0x07 s = some s.spreadRatio ∧ readCsr 0x08 s = some (BitVec.ofNat 32 s.lcbLimit) ∧
    readCsr 0x10 s = some (s.absCount.setWidth 32) ∧ readCsr 0x11 s = some ((s.absCount >>> 32).setWidth 32) ∧
    readCsr 0x12 s = some (s.anchorSecs.setWidth 32) ∧ readCsr 0x13 s = some ((s.anchorSecs >>> 32).setWidth 32) ∧
    readCsr 0x14 s = some s.anchorFrac ∧
    readCsr 0x15 s = some (s.anchorIdx.setWidth 32) ∧ readCsr 0x16 s = some ((s.anchorIdx >>> 32).setWidth 32) ∧
    readCsr 0x20 s = some (if s.kind = .long then 1 else 0) ∧ readCsr 0x21 s = some s.refLevel ∧
    readCsr 0x22 s = some s.burstOffset ∧ readCsr 0x23 s = some (BitVec.ofNat 32 s.lcbTotal) ∧
    (∀ n : Fin 14, readCsr (0x30 + BitVec.ofNat 8 n) s = some (s.fb[n].setWidth 32)) ∧
    (∀ n : Fin 24, readCsr (0x40 + BitVec.ofNat 8 n) s = some (BitVec.ofNat 32 s.lcbPos[n])) ∧
    readCsr 0x60 s = some (s.outcome.setWidth 32) ∧ readCsr 0x61 s = some s.consumed ∧
    readCsr 0x62 s = some s.produced ∧
    readCsr 0x63 s = some (s.tsSecs.setWidth 32) ∧ readCsr 0x64 s = some ((s.tsSecs >>> 32).setWidth 32) ∧
    readCsr 0x65 s = some s.tsFrac ∧ readCsr 0x66 s = some ((s.fb[0] >>> 3).setWidth 32) ∧
    readCsr 0x67 s = some (s.syndrome.setWidth 32) ∧ readCsr 0x68 s = some s.res0 ∧ readCsr 0x69 s = some s.res1 ∧
    readCsr 0x6A s = some (s.faultCode.setWidth 32) ∧ readCsr 0x6B s = some (statusWord s.status) ∧
    (∀ b : Byte, readCsr b s = none ↔
      b.toNat = 0 ∨ (0x09 ≤ b.toNat ∧ b.toNat ≤ 0x0F) ∨ (0x17 ≤ b.toNat ∧ b.toNat ≤ 0x1F) ∨
      (0x24 ≤ b.toNat ∧ b.toNat ≤ 0x2F) ∨ (0x3E ≤ b.toNat ∧ b.toNat ≤ 0x3F) ∨
      (0x58 ≤ b.toNat ∧ b.toNat ≤ 0x5F) ∨ 0x6C ≤ b.toNat)

/-- R132: CSRRD answers the register and changes no register, also in the faulted state; an unmapped number faults in a
running core and only answers 0xF1 in a faulted one. -/
def Obligations.CsrrdCommand : Prop :=
  ∀ (s : State) (csr : Byte),
    encode (.csrrd csr) = [0x02000000 ||| (csr.setWidth 32 <<< 16)] ∧
    (∀ v, readCsr csr s = some v → exec (.csrrd csr) s = .next { s with response := some ⟨0x00, v⟩ }) ∧
    (readCsr csr s = none → s.Running → exec (.csrrd csr) s = .next (faultedBy 0xF1 s)) ∧
    (readCsr csr s = none → ¬ s.Running → exec (.csrrd csr) s = .next { s with response := some ⟨0xF1, 0⟩ })

/-- R133: a legal CSRWR stores its data in the addressed register, sets CFG_VALID when that is THRESH_RATIO, and leaves
every other register as it was (MSG_TYPE is a view of FB0). -/
def Obligations.CsrwrStoresLegalData : Prop :=
  ∀ (s : State) (csr : Byte) (r : Csr) (data : Word),
    s.Running → Csr.ofNumber csr = some r → r.legal data = true →
    ∃ t, exec (.csrwr csr data) s = .next t ∧ readCsr csr t = some data ∧
      (∀ r' : Csr, r' ≠ r → r' ≠ .status → (r' = .msgType → r ≠ .fb 0) → r'.read t = r'.read s) ∧
      t.status = (if csr = 0x01 then { s.status with cfgValid := true } else s.status) ∧
      t.response = some ⟨0x00, 0⟩ ∧ t.config = s.config ∧ t.calls = s.calls

/-- R22: a CSRWR of an illegal value (or to a read-only register, which has no legal value) faults with 0xF1 and writes
nothing else. -/
def Obligations.CsrwrRefusesIllegalData : Prop :=
  ∀ (s : State) (csr : Byte) (r : Csr) (data : Word),
    s.Running → Csr.ofNumber csr = some r → r.legal data = false →
    exec (.csrwr csr data) s = .next (faultedBy 0xF1 s)

/-- R21, R22, R133, R134: the legal values of the CSR map, the `NUM` ranges given as bit patterns: those with a range,
those that take every word, and the read-only ones, which take none. That `-0.0` is legal for SLICE_STRONG is the model's
reading (log 9). -/
def Obligations.LegalValues : Prop :=
  ∀ data : Word,
    (Csr.threshRatio.legal data = true ↔ 0 < data.toNat ∧ data.toNat < 0x7F800000) ∧
    (Csr.sliceLow.legal data = true ↔ 0 < data.toNat ∧ data.toNat < 0x7F800000) ∧
    (Csr.sliceHigh.legal data = true ↔ 0 < data.toNat ∧ data.toNat < 0x7F800000) ∧
    (Csr.sliceStrong.legal data = true ↔ data.toNat < 0x7F800000 ∨ data.toNat = 0x80000000) ∧
    (Csr.spreadRatio.legal data = true ↔ 0x3F800000 ≤ data.toNat ∧ data.toNat < 0x7F800000) ∧
    (Csr.lcbLimit.legal data = true ↔ data.toNat ≤ 24) ∧
    (Csr.kind.legal data = true ↔ data.toNat ≤ 1) ∧
    (Csr.lcbTotal.legal data = true ↔ data.toNat ≤ 112) ∧
    (∀ n, (Csr.fb n).legal data = true ↔ data.toNat ≤ 255) ∧
    (∀ n, (Csr.lcbPos n).legal data = true ↔ data.toNat ≤ 111) ∧
    (∀ r ∈ [Csr.longMask, .nocorrMask, .refLevel, .burstOffset], r.legal data = true) ∧
    (∀ r ∈ [Csr.absCountLo, .absCountHi, .anchorSecsLo, .anchorSecsHi, .anchorFrac, .anchorIdxLo, .anchorIdxHi,
        .outcome, .consumed, .produced, .tsSecsLo, .tsSecsHi, .tsFrac, .msgType, .syndrome, .res0, .res1, .faultCode,
        .status], r.legal data = false) ∧
    (legalFraction data = true ↔ data.toNat < 0x3F800000 ∨ data.toNat = 0x80000000)

/-- R134: ANCHOR stores the anchor and sets ANCHOR_VALID, or faults on a fraction that is no finite number in `[0, 1)`;
as bit patterns, the legal ones are those below 1.0's, and `-0.0`. -/
def Obligations.AnchorCommand : Prop :=
  ∀ (s : State) (secs idx : DWord) (frac : Word), s.Running →
    encode (.anchor secs frac idx) =
      [0x04000000, secs.setWidth 32, (secs >>> 32).setWidth 32, frac, idx.setWidth 32, (idx >>> 32).setWidth 32] ∧
    (frac.toNat < 0x3F800000 ∨ frac = 0x80000000 → exec (.anchor secs frac idx) s = .next
      { s with anchorSecs := secs, anchorFrac := frac, anchorIdx := idx,
               status := { s.status with anchorValid := true }, response := some ⟨0x00, 0⟩ }) ∧
    (0x3F800000 ≤ frac.toNat → frac ≠ 0x80000000 → exec (.anchor secs frac idx) s = .next (faultedBy 0xF1 s))

/-! ### CRC/parity engine -/

/-- R151: CRC.CHECK of either length, and the fault on any other. -/
def Obligations.CrcCheckCommand : Prop :=
  ∀ (s : State) (length : Byte), s.Running →
    encode (.crcCheck length) = [0x10000000 ||| (length.setWidth 32 <<< 16)] ∧
    exec (.crcCheck length) s = .next
      (if length = 0x38 then
        endedWith 0x00 (counted 0 0 { s with syndrome := crc s.config.parityTable .short s.fb })
       else if length = 0x70 then
        endedWith 0x00 (counted 0 0 { s with syndrome := crc s.config.parityTable .long s.fb })
       else faultedBy 0xF1 s)

/-- R73, R76, R150: frame bit `k` is bit `7 - (k mod 8)` of `FB[k div 8]`; writing or flipping it leaves every other bit of
every byte; the syndrome is the exclusive or of `TBL[i + (112 - len)]` over the set frame bits `i < len`. -/
def Obligations.FrameBitsAndSyndrome : Prop :=
  ∀ (table : Vector Word24 112) (fb : Vector Byte 14),
    (∀ k : Fin 112, frameBit fb k = (fb[k.val / 8]'(by omega)).getLsbD (7 - k.val % 8)) ∧
    (∀ (k : Fin 112) (b : Bool) (n : Fin 14) (m : Fin 8), (setFrameBit fb k b)[n].getLsbD m =
      if n.val = k.val / 8 ∧ m.val = 7 - k.val % 8 then b else fb[n].getLsbD m) ∧
    (∀ (k : Fin 112) (n : Fin 14) (m : Fin 8), (flipFrameBit fb k)[n].getLsbD m =
      if n.val = k.val / 8 ∧ m.val = 7 - k.val % 8 then !fb[n].getLsbD m else fb[n].getLsbD m) ∧
    crc table .long fb =
      (List.finRange 112).foldl (fun acc i => if frameBit fb i then acc ^^^ table[i.val] else acc) 0 ∧
    crc table .short fb =
      (List.finRange 56).foldl (fun acc i =>
        if frameBit fb (i.castLE (by decide)) then acc ^^^ table[i.val + 56] else acc) 0

/-- R153: the syndrome is linear in the frame contents, and flipping bits changes it by their table entries. -/
def Obligations.CrcIsLinear : Prop :=
  (∀ (table : Vector Word24 112) (kind : FrameKind) (f e : Vector Byte 14),
    crc table kind (Vector.zipWith (· ^^^ ·) f e) = crc table kind f ^^^ crc table kind e) ∧
  (∀ (table : Vector Word24 112) (f : Vector Byte 14) (ps : List (Fin 112)),
    crc table .long (flipBits f ps) = ps.foldl (fun acc p => acc ^^^ table[p.val]) (crc table .long f)) ∧
  (∀ (table : Vector Word24 112) (f : Vector Byte 14) (ps : List (Fin 56)),
    crc table .short (flipBits f (ps.map (·.castLE (by decide)))) =
      ps.foldl (fun acc p => acc ^^^ table[p.val + 56]) (crc table .short f))

/-! ### Burst detector -/

/-- R169: DET.TEST ends with the outcome of `DetTest(j)`, or faults when the ratio was never written. -/
def Obligations.DetTestCommand : Prop :=
  ∀ (s : State) (j n : Word), s.Running → s.Presents n →
    encode (.detTest j n) = [0x20000000, j, n] ∧
    (s.status.cfgValid = false → exec (.detTest j n) s = .next (faultedBy 0xF2 s)) ∧
    (s.status.cfgValid = true → ∃ r, detTest s (presentedWindow s) j.toNat = some r ∧
      (r = .outOfWindow ↔ n.toNat ≤ j.toNat + 16 * s.config.spc) ∧
      exec (.detTest j n) s = .next (match r with
        | .outOfWindow => endedWith 0x01 (counted 0 0 s)
        | .reject why => endedWith 0x04 (counted 0 0 { s with res0 := why.word })
        | .accept i ref => endedWith 0x03
            (counted 0 0 { s with res0 := 0, burstOffset := BitVec.ofNat 32 i, refLevel := ref })))

/-- R107, R162 to R168: on a candidate whose span is in the window the test rejects with the first step that fails,
under its code of R107, and accepts exactly when all pass, with the refined offset and the mean there. -/
def Obligations.DetectorStepsDecide : Prop :=
  (RejectReason.belowThreshold.word = 1 ∧ RejectReason.stillRising.word = 2 ∧ RejectReason.pulseMissing.word = 3 ∧
    RejectReason.spaceViolated.word = 4 ∧ RejectReason.spreadViolated.word = 5) ∧
  ∀ (s : State) (w : Window) (j : Nat), 0 < s.config.spc → j + 16 * s.config.spc < w.length →
    ∃ i avg, RefinesTo s.config.spc w j i ∧ avgPeak s.config.spc w i = some avg ∧
      (detTest s w j = some (.reject .belowThreshold) ↔ ¬ Fires s w j) ∧
      (detTest s w j = some (.reject .stillRising) ↔ Fires s w j ∧ StillRising w j) ∧
      (detTest s w j = some (.reject .pulseMissing) ↔ Fires s w j ∧ ¬ StillRising w j ∧ ¬ PulsesExceed s w j) ∧
      (detTest s w j = some (.reject .spaceViolated) ↔
        Fires s w j ∧ ¬ StillRising w j ∧ PulsesExceed s w j ∧ ¬ SilenceHolds s w i avg) ∧
      (detTest s w j = some (.reject .spreadViolated) ↔
        Fires s w j ∧ ¬ StillRising w j ∧ PulsesExceed s w j ∧ SilenceHolds s w i avg ∧ ¬ SpreadHolds s w i avg) ∧
      (∀ i' ref, detTest s w j = some (.accept i' ref) ↔ i' = i ∧ ref = avg.toBits ∧
        Fires s w j ∧ ¬ StillRising w j ∧ PulsesExceed s w j ∧ SilenceHolds s w i avg ∧ SpreadHolds s w i avg)

/-- R165, R168: refinement moves later only, by at most SPC, each advance to a higher four-pulse sum, and stops early only
where the next sum is not higher. -/
def Obligations.RefinementIsBounded : Prop :=
  ∀ (s : State) (w : Window) (j i : Nat) (ref : Word), detTest s w j = some (.accept i ref) →
    j ≤ i ∧ i ≤ j + s.config.spc ∧ i + 15 * s.config.spc < w.length ∧
    (∀ a, j ≤ a → a < i → ∃ x y, corr s.config.spc w a = some x ∧ corr s.config.spc w (a + 1) = some y ∧
      y.gt x = true) ∧
    (i < j + s.config.spc → ∃ x y, corr s.config.spc w i = some x ∧ corr s.config.spc w (i + 1) = some y ∧
      y.gt x = false)

/-- R75, R83, R163, R168: the test of candidate `j` depends on the amplitudes from `j` to `j + 16 SPC` and on the one
reference level at `j`, and on nothing else of the window: no sample before `j`. -/
def Obligations.DetTestReadsOnlyItsSpan : Prop :=
  ∀ (s : State) (w w' : Window) (j : Nat), 0 < s.config.spc →
    j + 16 * s.config.spc < w.length → j + 16 * s.config.spc < w'.length →
    (∀ k, j ≤ k → k ≤ j + 16 * s.config.spc → (w[k]?).map (·.amplitude) = (w'[k]?).map (·.amplitude)) →
    (w[j]?).map (·.reference) = (w'[j]?).map (·.reference) →
    detTest s w j = detTest s w' j

/-- R170, R171: the scan reports the first accepted eligible candidate, or that every eligible one was rejected, and how
many samples to consume. -/
def Obligations.ScanFindsTheFirstBurst : Prop :=
  ∀ (s : State) (w : Window) (r : ScanResult), scan s w = some r →
    match r with
    | .insufficient => w.length < 241 * s.config.spc
    | .noBurst c => 241 * s.config.spc ≤ w.length ∧ c = w.length - 241 * s.config.spc + 1 ∧
        ∀ j, j + 241 * s.config.spc ≤ w.length → ¬ Accepted s w j
    | .burst i ref c => c = i + 240 * s.config.spc ∧ c ≤ w.length ∧
        ∃ j, j + 241 * s.config.spc ≤ w.length ∧ detTest s w j = some (.accept i ref) ∧
          ∀ j' < j, ¬ Accepted s w j'

/-- R173: RUN.DETECT in its three results, or the fault when the ratio was never written. -/
def Obligations.RunDetectCommand : Prop :=
  ∀ (s : State) (n : Word), s.Running → s.Presents n →
    encode (.runDetect n) = [0x21000000, n] ∧
    (s.status.cfgValid = false → exec (.runDetect n) s = .next (faultedBy 0xF2 s)) ∧
    (s.status.cfgValid = true → ∃ r, scan s (presentedWindow s) = some r ∧
      (r = .insufficient ↔ n.toNat < 241 * s.config.spc) ∧
      exec (.runDetect n) s = .next (match r with
        | .insufficient => endedWith 0x01 (counted 0 0 s)
        | .noBurst c => endedWith 0x02 (counted (BitVec.ofNat 32 c) 0
            { s with absCount := s.absCount + BitVec.ofNat 64 c })
        | .burst i ref c => endedWith 0x03 (counted (BitVec.ofNat 32 c) 1
            { timestamp i s with
              burstOffset := BitVec.ofNat 32 i, refLevel := ref,
              absCount := s.absCount + BitVec.ofNat 64 c })))

/-- R172: the timestamp of a burst at window offset `i`, and what it leaves without an anchor. -/
def Obligations.TimestampRule : Prop :=
  ∀ (s : State) (i : Nat),
    (s.status.anchorValid = false → timestamp i s =
      { s with tsSecs := 0, tsFrac := 0x00000000, status := { s.status with tsValid := false } }) ∧
    (s.status.anchorValid = true → 0 < s.config.sampleRate → ∃ q r : Int,
      ((s.absCount.toNat : Int) + i) - s.anchorIdx.toNat = q * s.config.sampleRate + r ∧
      0 ≤ r ∧ r < s.config.sampleRate ∧
      timestamp i s =
        (let f := (Fp32.ofBits s.anchorFrac).add ((Fp32.ofNat r.toNat).div (Fp32.ofNat s.config.sampleRate))
         if f.ge Fp32.one then
          { s with tsSecs := s.anchorSecs + BitVec.ofInt 64 (q + 1), tsFrac := (f.sub Fp32.one).toBits,
                   status := { s.status with tsValid := true } }
         else
          { s with tsSecs := s.anchorSecs + BitVec.ofInt 64 q, tsFrac := f.toBits,
                   status := { s.status with tsValid := true } }))

/-- R174: a window in which no sample exceeds its reference times the ratio never gives a burst. -/
def Obligations.QuietWindowHasNoBurst : Prop :=
  ∀ (s : State) (n : Word), s.Running → s.Presents n → s.status.cfgValid = true →
    241 * s.config.spc ≤ n.toNat →
    (∀ p ∈ presentedWindow s,
      (Fp32.ofBits p.amplitude).gt ((Fp32.ofBits p.reference).mul (Fp32.ofBits s.threshRatio)) = false) →
    exec (.runDetect n) s = .next (endedWith 0x02 (counted (BitVec.ofNat 32 (n.toNat - 241 * s.config.spc + 1)) 0
      { s with absCount := s.absCount + BitVec.ofNat 64 (n.toNat - 241 * s.config.spc + 1) }))

/-! ### Bit slicer -/

/-- R190: the dual-chip decision in its four cases. -/
def Obligations.SlicerDecision : Prop :=
  ∀ (s : State) (e0 e1 ref : Fp32),
    let low := ref.mul (Fp32.ofBits s.sliceLow)
    let high := ref.mul (Fp32.ofBits s.sliceHigh)
    let strong := low.mul (Fp32.ofBits s.sliceStrong)
    let In := fun e : Fp32 => low.lt e = true ∧ e.lt high = true
    (In e0 → ¬ In e1 → sliceBit s e0 e1 ref = ⟨true, true⟩) ∧
    (In e1 → ¬ In e0 → sliceBit s e0 e1 ref = ⟨false, true⟩) ∧
    (In e0 → In e1 → sliceBit s e0 e1 ref = ⟨e0.gt e1, false⟩) ∧
    (¬ In e0 → ¬ In e1 → e0.gt e1 = true → sliceBit s e0 e1 ref = ⟨true, e1.lt strong⟩) ∧
    (¬ In e0 → ¬ In e1 → e0.gt e1 = false → sliceBit s e0 e1 ref = ⟨false, e0.lt strong⟩)

/-- R191: SLICE.BIT writes value and confidence to RES0. -/
def Obligations.SliceBitCommand : Prop :=
  ∀ (s : State) (e0 e1 ref : Word), s.Running →
    encode (.sliceBit e0 e1 ref) = [0x30000000, e0, e1, ref] ∧
    exec (.sliceBit e0 e1 ref) s = .next
      (let b := sliceBit s (Fp32.ofBits e0) (Fp32.ofBits e1) (Fp32.ofBits ref)
       endedWith 0x00 (counted 0 0
        { s with res0 := (if b.value then 1 else 0) + (if b.confident then 2 else 0) }))

/-- R194: SLICE.FRAME slices the frame at BURST_OFFSET with REF_LEVEL when the worst case fits, and writes the frame
registers only. -/
def Obligations.SliceFrameCommand : Prop :=
  ∀ (s : State) (n : Word), s.Running → s.Presents n →
    encode (.sliceFrame n) = [0x31000000, n] ∧
    (n.toNat < s.burstOffset.toNat + 240 * s.config.spc →
      exec (.sliceFrame n) s = .next (endedWith 0x01 (counted 0 0 s))) ∧
    (s.burstOffset.toNat + 240 * s.config.spc ≤ n.toNat →
      ∃ t, sliceFrame (presentedWindow s) s.burstOffset.toNat s.refLevel s = some t ∧
        exec (.sliceFrame n) s = .next (endedWith 0x00 (counted 0 0
          { s with fb := t.fb, lcbPos := t.lcbPos, lcbTotal := t.lcbTotal, kind := t.kind })))

/-- R192, R193: after slicing, each frame bit below `len(KIND)` is the decision on its two chips, LCB_TOTAL counts the
doubtful bits and LCB_POS holds the first 24 of them in order. -/
def Obligations.SlicedFrameMatchesTheChips : Prop :=
  ∀ (w : Window) (i : Nat) (ref : Word) (s t : State), sliceFrame w i ref s = some t →
    (∀ k : Fin 112, k.val < kindLen t.kind →
      ∃ b, chipDecision s w i ref k = some b ∧ frameBit t.fb k = b.value) ∧
    t.lcbTotal.val = (frameIndices t.kind).countP (isDoubtful s w i ref) ∧
    t.lcbPos.toList.take t.lcbTotal.val = ((frameIndices t.kind).filter (isDoubtful s w i ref)).take 24

/-- R37: the frame invariants after SLICE.FRAME or the slicing stage of RUN.DECODE. That there are 24 positions at most
holds by the type of the register (log 11). -/
def Obligations.SlicedFrameInvariants : Prop :=
  ∀ (w : Window) (i : Nat) (ref : Word) (s t : State), sliceFrame w i ref s = some t →
    UpperBitsZero t ∧ PositionsOrdered t ∧ t.lcbPos.toList.length = 24 ∧
    (t.kind = .long ↔ s.longMask.getLsbD (t.fb[0] >>> 3).toNat = true)

/-! ### Frame classifier -/

/-- R211, R212: CLS.KIND answers bit `hdr` of LONG_MASK. -/
def Obligations.ClsKindCommand : Prop :=
  ∀ (s : State) (hdr : BitVec 5), s.Running →
    encode (.clsKind hdr) = [0x40000000 ||| hdr.setWidth 32] ∧
    exec (.clsKind hdr) s = .next (endedWith 0x00 (counted 0 0
      { s with res0 := (s.longMask >>> hdr.toNat) &&& 1 }))

/-- R213: the fruit scan answers the first accepted candidate of its range, if there is one. -/
def Obligations.FruitFindsTheFirst : Prop :=
  ∀ (s : State) (w : Window) (i : Nat) (kind : FrameKind) (hit : Option Nat), fruit s w i kind = some hit →
    match hit with
    | some j => i + 16 * s.config.spc ≤ j ∧ j + 16 * s.config.spc < i + kindSpan s.config.spc kind ∧
        Accepted s w j ∧ ∀ j', i + 16 * s.config.spc ≤ j' → j' < j → ¬ Accepted s w j'
    | none => ∀ j, i + 16 * s.config.spc ≤ j → j + 16 * s.config.spc < i + kindSpan s.config.spc kind →
        ¬ Accepted s w j

/-- R214: CLS.FRUIT in its three outcomes, or the fault when the ratio was never written. -/
def Obligations.ClsFruitCommand : Prop :=
  ∀ (s : State) (n : Word), s.Running → s.Presents n →
    encode (.clsFruit n) = [0x41000000, n] ∧
    (s.status.cfgValid = false → exec (.clsFruit n) s = .next (faultedBy 0xF2 s)) ∧
    (s.status.cfgValid = true → n.toNat < s.burstOffset.toNat + kindSpan s.config.spc s.kind →
      exec (.clsFruit n) s = .next (endedWith 0x01 (counted 0 0 s))) ∧
    (s.status.cfgValid = true → s.burstOffset.toNat + kindSpan s.config.spc s.kind ≤ n.toNat →
      ∃ hit, fruit s (presentedWindow s) s.burstOffset.toNat s.kind = some hit ∧
        exec (.clsFruit n) s = .next (match hit with
          | some j => endedWith 0x21 (counted 0 0
              { s with res0 := BitVec.ofNat 32 j, status := { s.status with fruited := true } })
          | none => endedWith 0x2A (counted 0 0
              { s with res0 := 0, status := { s.status with fruited := false } })))

/-! ### Frame validator -/

/-- R220, R221: VALIDATE ends with the first step that decides. -/
def Obligations.ValidateCommand : Prop :=
  ∀ s : State, s.Running →
    encode .validate = [0x50000000] ∧
    exec .validate s = .next
      (let mt := (s.fb[0] >>> 3).toNat
       let u := { s with syndrome := crc s.config.parityTable s.kind s.fb }
       if ∀ k : Fin 112, k.val < kindLen s.kind → frameBit s.fb k = false then endedWith 0x20 (counted 0 0 s)
       else if s.kind = .short ∧ mt ≠ 11 ∧ 0 < s.lcbTotal.val then endedWith 0x23 (counted 0 0 s)
       else if mt = 11 ∧ 10 ≤ s.lcbTotal.val then endedWith 0x22 (counted 0 0 s)
       else if u.syndrome = 0 then endedWith 0x10 (counted 0 0 u)
       else if s.kind = .short then endedWith 0x24 (counted 0 0 u)
       else if s.nocorrMask.getLsbD mt then endedWith 0x24 (counted 0 0 u)
       else match (correctFrame s).1 with
        | .tooMany => endedWith 0x25 (counted 0 0 (correctFrame s).2)
        | .unsolvable => endedWith 0x26 (counted 0 0 (correctFrame s).2)
        | .ambiguous => endedWith 0x27 (counted 0 0 (correctFrame s).2)
        | .single => endedWith 0x11 (counted 0 0 (correctFrame s).2)
        | .noErrorPresent => s)

/-- R220 (e), R243 (g): what VALIDATE and CORRECT leave unchanged. -/
def Obligations.ValidatorAndCorrectorFrame : Prop :=
  ∀ (s t : State) (i : Instr), s.Running → (i = .validate ∨ i = .correct) → exec i s = .next t →
    t.status.fault = false →
    t = { s with fb := t.fb, syndrome := t.syndrome, outcome := t.outcome, consumed := 0, produced := 0,
                 response := some ⟨t.outcome, 0⟩ } ∧
    (t.outcome ≠ 0x11 → t.outcome ≠ 0x29 → t.fb = s.fb) ∧
    (t.outcome = 0x20 ∨ t.outcome = 0x22 ∨ t.outcome = 0x23 → t.syndrome = s.syndrome)

/-- R222: a second VALIDATE after a corrected accept answers 0x10, unless the corrected frame is all zero or of type 11
with ten low-confidence bits, and the latter cannot be with LCB_LIMIT below 10; after 0x10 it repeats exactly. -/
def Obligations.ValidateIsIdempotent : Prop :=
  ∀ s t : State, s.Running → exec .validate s = .next t →
    (t.outcome = 0x11 →
      (¬ ∀ k : Fin 112, k.val < kindLen t.kind → frameBit t.fb k = false) →
      ¬ ((t.fb[0] >>> 3).toNat = 11 ∧ 10 ≤ t.lcbTotal.val) →
      exec .validate t = .next (endedWith 0x10 t)) ∧
    (t.outcome = 0x11 → s.lcbLimit.val < 10 → t.lcbTotal.val < 10) ∧
    (t.outcome = 0x10 → exec .validate t = .next t)

/-- R108, R243: whenever a frame is accepted or corrected, by CORRECT, VALIDATE or RUN.DECODE, the frame in the registers
has syndrome 0, and SYNDROME says so. -/
def Obligations.AcceptedFramesHaveSyndromeZero : Prop :=
  ∀ s t : State, s.Running →
    let Clean := t.syndrome = 0 ∧ crc t.config.parityTable t.kind t.fb = 0
    (exec .correct s = .next t → t.outcome = 0x28 ∨ t.outcome = 0x29 → Clean) ∧
    (exec .validate s = .next t → t.outcome = 0x10 ∨ t.outcome = 0x11 → Clean) ∧
    (∀ n, s.status.cfgValid = true → s.Presents n → exec (.runDecode n) s = .next t → t.produced = 1 → Clean)

/-! ### Brute-force corrector -/

/-- R240: `NextComb(x)` is the least natural number above `x` with as many one bits, and `NextComb(0) = 0`. -/
def Obligations.NextCombIsLeast : Prop :=
  nextComb 0 = 0 ∧
  ∀ x : Nat, 0 < x → x < nextComb x ∧ popcount (nextComb x) = popcount x ∧
    ∀ y, x < y → popcount y = popcount x → nextComb x ≤ y

/-- R241: NEXTCOMB of a 24-bit mask, and the fault above. -/
def Obligations.NextcombCommand : Prop :=
  ∀ (s : State) (x : Word), s.Running →
    encode (.nextcomb x) = [0x60000000, x] ∧
    (x.toNat < 2 ^ 24 → nextComb x.toNat < 2 ^ 25 ∧
      exec (.nextcomb x) s = .next (endedWith 0x00 (counted 0 0
        { s with res0 := BitVec.ofNat 32 (nextComb x.toNat) }))) ∧
    (2 ^ 24 ≤ x.toNat → exec (.nextcomb x) s = .next (faultedBy 0xF1 s))

/-- R242: the candidates over `k` positions are the non-zero `k`-bit masks, each once, ordered by popcount and then by
value; there are `2^k - 1` of them; bit `b` of a mask selects the position at list index `b`. -/
def Obligations.CandidateOrder : Prop :=
  ∀ k : Nat,
    (∀ m, m ∈ candidates k ↔ 0 < m ∧ m < 2 ^ k) ∧
    (candidates k).Pairwise (fun a b => popcount a < popcount b ∨ (popcount a = popcount b ∧ a < b)) ∧
    (candidates k).length = 2 ^ k - 1 ∧
    (∀ (m : Nat) (ps : List (Fin 112)), selected m ps = (ps.zipIdx.filter fun x => m.testBit x.2).map (·.1))

/-- R243: `Correct()` is decided by the number of matching subsets of the recorded positions: the matches are found
whatever the order of the search. -/
def Obligations.CorrectByCountingMatches : Prop :=
  ∀ s : State,
    let table := s.config.parityTable
    let syn := crc table .long s.fb
    let ps := recordedPositions s
    let Match := fun m : Nat => 0 < m ∧ m < 2 ^ s.lcbTotal.val ∧
      (selected m ps).foldl (fun c p => c ^^^ table[p.val]) syn = 0
    let same := { s with syndrome := syn }
    (syn = 0 → correctFrame s = (.noErrorPresent, same)) ∧
    (syn ≠ 0 → s.lcbLimit.val < s.lcbTotal.val → correctFrame s = (.tooMany, same)) ∧
    (syn ≠ 0 → s.lcbTotal.val ≤ s.lcbLimit.val →
      ((∀ m, ¬ Match m) → correctFrame s = (.unsolvable, same)) ∧
      (∀ m, Match m → (∀ m', Match m' → m' = m) →
        correctFrame s = (.single, { s with fb := flipBits s.fb (selected m ps), syndrome := 0 })) ∧
      (∀ m m', Match m → Match m' → m ≠ m' → correctFrame s = (.ambiguous, same)))

/-- R244: CORRECT on a Long frame, and the fault on a Short one. -/
def Obligations.CorrectCommand : Prop :=
  ∀ s : State, s.Running →
    encode .correct = [0x61000000] ∧
    (s.kind = .short → exec .correct s = .next (faultedBy 0xF1 s)) ∧
    (s.kind = .long → exec .correct s = .next
      (match (correctFrame s).1 with
        | .noErrorPresent => endedWith 0x28 (counted 0 0 (correctFrame s).2)
        | .tooMany => endedWith 0x25 (counted 0 0 (correctFrame s).2)
        | .unsolvable => endedWith 0x26 (counted 0 0 (correctFrame s).2)
        | .ambiguous => endedWith 0x27 (counted 0 0 (correctFrame s).2)
        | .single => endedWith 0x29 (counted 0 0 (correctFrame s).2)))

/-! ### The whole pipeline -/

/-- R260: RUN.DECODE: the scan, then on a burst the timestamp, slicing, the fruit scan and the verdict. -/
def Obligations.RunDecodeCommand : Prop :=
  ∀ (s : State) (n : Word), s.Running → s.Presents n →
    encode (.runDecode n) = [0x70000000, n] ∧
    (s.status.cfgValid = false → exec (.runDecode n) s = .next (faultedBy 0xF2 s)) ∧
    (s.status.cfgValid = true → ∃ r, scan s (presentedWindow s) = some r ∧
      match r with
      | .insufficient => exec (.runDecode n) s = .next (endedWith 0x01 (counted 0 0 s))
      | .noBurst c => exec (.runDecode n) s = .next (endedWith 0x02 (counted (BitVec.ofNat 32 c) 0
          { s with absCount := s.absCount + BitVec.ofNat 64 c }))
      | .burst i ref c => ∃ t hit,
          sliceFrame (presentedWindow s) i ref
            { timestamp i s with burstOffset := BitVec.ofNat 32 i, refLevel := ref } = some t ∧
          fruit t (presentedWindow s) i t.kind = some hit ∧
          exec (.runDecode n) s = .next
            (let verdict := match hit with
              | some _ => (Code.fruitedFrame, { t with status := { t.status with fruited := true } })
              | none => validateFrame { t with status := { t.status with fruited := false } }
             endedWith verdict.1.byte (counted (BitVec.ofNat 32 c)
              (if verdict.1.byte = (0x10 : Byte) ∨ verdict.1.byte = (0x11 : Byte) then 1 else 0)
              { verdict.2 with absCount := s.absCount + BitVec.ofNat 64 c })))

/-- R260: the registers RUN.DECODE may write; all the others it leaves. -/
def Obligations.RunDecodeFrame : Prop :=
  ∀ (s t : State) (n : Word), s.Running → s.Presents n → s.status.cfgValid = true →
    exec (.runDecode n) s = .next t →
    t = { s with
      burstOffset := t.burstOffset, refLevel := t.refLevel, tsSecs := t.tsSecs, tsFrac := t.tsFrac, fb := t.fb,
      lcbPos := t.lcbPos, lcbTotal := t.lcbTotal, kind := t.kind, syndrome := t.syndrome,
      consumed := t.consumed, produced := t.produced, absCount := t.absCount, outcome := t.outcome,
      status := { s.status with tsValid := t.status.tsValid, fruited := t.status.fruited },
      response := some ⟨t.outcome, 0⟩ } ∧
    (t.outcome = 0x01 → t = endedWith 0x01 (counted 0 0 s)) ∧
    (t.outcome = 0x02 → t = endedWith 0x02 (counted t.consumed 0
      { s with absCount := s.absCount + t.consumed.setWidth 64 })) ∧
    (t.outcome = 0x20 ∨ t.outcome = 0x21 ∨ t.outcome = 0x22 ∨ t.outcome = 0x23 → t.syndrome = s.syndrome)

/-- R263: CONSUMED, PRODUCED and ABS_COUNT of the RUN commands, and of every other command with opcode 0x10 or above. -/
def Obligations.ConsumptionRule : Prop :=
  ∀ (s t : State), s.Running →
    (∀ n i, s.Presents n → s.status.cfgValid = true → (i = .runDetect n ∨ i = .runDecode n) →
      exec i s = .next t →
      t.consumed.toNat ≤ n.toNat ∧ t.absCount = s.absCount + t.consumed.setWidth 64 ∧
      (n.toNat < 241 * s.config.spc → t.outcome = 0x01 ∧ t.consumed = 0 ∧ t.produced = 0) ∧
      (241 * s.config.spc ≤ n.toNat → t.outcome = 0x02 →
        t.consumed.toNat = n.toNat - 241 * s.config.spc + 1 ∧ t.produced = 0) ∧
      (241 * s.config.spc ≤ n.toNat → t.outcome ≠ 0x02 →
        t.consumed.toNat = t.burstOffset.toNat + 240 * s.config.spc ∧
        t.produced = (if t.outcome = 0x03 ∨ t.outcome = 0x10 ∨ t.outcome = 0x11 then 1 else 0))) ∧
    (∀ i : Instr, 0x10 ≤ i.opcode.number.toNat → (∀ n, i ≠ .runDetect n ∧ i ≠ .runDecode n) →
      exec i s = .next t → t.status.fault = false →
      t.consumed = 0 ∧ t.produced = 0 ∧ t.absCount = s.absCount)

/-- R264: RUN.DECODE on a window with a burst is DET.TEST on the first accepted candidate, SLICE.FRAME, CLS.FRUIT and, if
that is clean, VALIDATE, in every register it writes but CONSUMED, PRODUCED, ABS_COUNT and the TS registers. -/
def Obligations.RunDecodeDecomposes : Prop :=
  ∀ (s t : State) (n : Word) (i : Nat) (ref : Word) (c : Nat),
    s.Running → s.Presents n → s.status.cfgValid = true →
    scan s (presentedWindow s) = some (.burst i ref c) → exec (.runDecode n) s = .next t →
    let AgreesWith := fun u : State =>
      t = { u with consumed := t.consumed, produced := t.produced, absCount := t.absCount, tsSecs := t.tsSecs,
                   tsFrac := t.tsFrac, status := { u.status with tsValid := t.status.tsValid },
                   res0 := t.res0 }
    ∃ (j : Word) (s1 s2 s3 : State),
      (∀ j' < j.toNat, ¬ Accepted s (presentedWindow s) j') ∧
      exec (.detTest j n) s = .next s1 ∧ s1.outcome = 0x03 ∧
      exec (.sliceFrame n) s1 = .next s2 ∧ s2.outcome = 0x00 ∧
      exec (.clsFruit n) s2 = .next s3 ∧
      ((s3.outcome = 0x21 ∧ AgreesWith s3) ∨
       (s3.outcome = 0x2A ∧ ∃ s4, exec .validate s3 = .next s4 ∧ AgreesWith s4))

/-! ### Faults and the whole machine -/

/-- R3, R4, R75: every command answers a next state in every state with positive build parameters, so no window read
outside `0 .. N-1` is ever issued. It is about commands: a step refuses a host call without all its words (log 5). -/
def Obligations.EveryCommandAnswers : Prop :=
  ∀ (i : Instr) (s : State), s.config.wf = true → ∃ t, exec i s = .next t

/-- R284: the faulted state accepts RESET and CSRRD; every other command, and every illegal word, is refused with 0xFF
and changes no register. That the step drops the whole call, the words `ops` included, is the model's choice (log 1,
log 6). -/
def Obligations.FaultedCoreRefuses : Prop :=
  ∀ s : State, s.status.fault = true →
    (∀ i : Instr, i ≠ .reset → (∀ csr, i ≠ .csrrd csr) →
      exec i s = .next { s with response := some ⟨0xFF, 0⟩ }) ∧
    (∀ csr, ∃ v, exec (.csrrd csr) s = .next { s with response := some v } ∧
      (readCsr csr s = none → v = ⟨0xF1, 0⟩) ∧ (∀ d, readCsr csr s = some d → v = ⟨0x00, d⟩)) ∧
    (∃ t, exec .reset s = .next t ∧ t.status.fault = false) ∧
    (∀ (w : Word) (ops : List Word) (window : Window) (later : List HostCall),
      s.calls = ⟨w :: ops, window⟩ :: later → decode (w :: ops) = .error (.illegalCommand w) →
      step s = .next { s with response := some ⟨0xFF, 0⟩, calls := later })

/-- R283: a command that faults a running core leaves the state before the command and the three writes, with one of the
three codes a decoded command can raise. -/
def Obligations.FaultEntryKeepsTheState : Prop :=
  ∀ (i : Instr) (s t : State), s.Running → exec i s = .next t → t.status.fault = true →
    ∃ c : FaultCode, c ≠ .illegalCommand ∧ t = faultedBy c.byte s

/-- R286: the window length is checked before the configuration, and both before anything else of the command. -/
def Obligations.FaultPriority : Prop :=
  ∀ (i : Instr) (s : State) (n : Word), s.Running → windowOperand i = some n →
    (n.toNat ≠ (presentedWindow s).length → exec i s = .next (faultedBy 0xF3 s)) ∧
    (n.toNat = (presentedWindow s).length → needsRatio i = true → s.status.cfgValid = false →
      exec i s = .next (faultedBy 0xF2 s))

/-- R282: a command with an operand that is illegal whatever the state faults with 0xF1. -/
def Obligations.IllFormedCommandsFault : Prop :=
  ∀ (i : Instr) (s : State), s.Running → i.wf = false → exec i s = .next (faultedBy 0xF1 s)

/-- R5, R23, R30, R39, R43 to R45: the invariant holds at reset, whatever the positive build parameters. -/
def Obligations.InvariantAtReset : Prop :=
  ∀ c : Config, c.wf = true → (State.resetFor c).Inv

/-- The invariant is kept by every step, on whatever the host presents. -/
def Obligations.InvariantKept : Prop :=
  ∀ s t : State, s.Inv → step s = .next t → t.Inv

/-- R20 to R30: the build parameters never change; the configuration registers are written by CSRWR and RESET only,
ABS_COUNT by the RUN commands and RESET only, the anchor by ANCHOR and RESET only. That a command, RESET included, keeps
the pending host calls is the model's choice (log 1) and reading (log 13). -/
def Obligations.ControlRegisterWriters : Prop :=
  ∀ (i : Instr) (s t : State), exec i s = .next t →
    t.config = s.config ∧ t.calls = s.calls ∧
    (i ≠ .reset → (∀ csr data, i ≠ .csrwr csr data) → SameConfiguration t s) ∧
    (i ≠ .reset → (∀ n, i ≠ .runDetect n ∧ i ≠ .runDecode n) → t.absCount = s.absCount) ∧
    (i ≠ .reset → (∀ secs frac idx, i ≠ .anchor secs frac idx) →
      t.anchorSecs = s.anchorSecs ∧ t.anchorFrac = s.anchorFrac ∧ t.anchorIdx = s.anchorIdx)

/-- R31 to R36: which commands write the frame working registers. -/
def Obligations.FrameRegisterWriters : Prop :=
  ∀ (i : Instr) (s t : State), exec i s = .next t → i ≠ .reset → (∀ csr data, i ≠ .csrwr csr data) →
    ((∀ n, i ≠ .sliceFrame n ∧ i ≠ .runDecode n) →
      t.kind = s.kind ∧ t.lcbTotal = s.lcbTotal ∧ t.lcbPos = s.lcbPos ∧
      (i ≠ .validate → i ≠ .correct → t.fb = s.fb)) ∧
    ((∀ j n, i ≠ .detTest j n ∧ i ≠ .runDetect n ∧ i ≠ .runDecode n) →
      t.refLevel = s.refLevel ∧ t.burstOffset = s.burstOffset)

/-- R39 to R43: which commands write the result registers other than OUTCOME; RES1 is written by none. -/
def Obligations.ResultRegisterWriters : Prop :=
  ∀ (i : Instr) (s t : State), exec i s = .next t → i ≠ .reset →
    t.res1 = s.res1 ∧
    (i.opcode.number.toNat < 0x10 → t.consumed = s.consumed ∧ t.produced = s.produced ∧
      (t.status.fault = s.status.fault → t.outcome = s.outcome)) ∧
    ((∀ n, i ≠ .runDetect n ∧ i ≠ .runDecode n) → t.tsSecs = s.tsSecs ∧ t.tsFrac = s.tsFrac) ∧
    ((∀ a, i ≠ .crcCheck a) → i ≠ .validate → i ≠ .correct → (∀ n, i ≠ .runDecode n) →
      t.syndrome = s.syndrome) ∧
    ((∀ j n, i ≠ .detTest j n) → (∀ a b c, i ≠ .sliceBit a b c) → (∀ h, i ≠ .clsKind h) →
      (∀ n, i ≠ .clsFruit n) → (∀ x, i ≠ .nextcomb x) → t.res0 = s.res0)

/-- R45: the bits of STATUS, and which command sets or clears each flag, in a running core. -/
def Obligations.FlagWriters : Prop :=
  (∀ f : Status, statusWord f =
    (BitVec.ofBool f.fruited ++ BitVec.ofBool f.tsValid ++ BitVec.ofBool f.anchorValid ++ BitVec.ofBool f.cfgValid ++
      BitVec.ofBool f.fault).setWidth 32) ∧
  (∀ s t : State, exec .reset s = .next t → t.status = ⟨false, false, false, false, false⟩) ∧
  (∀ (i : Instr) (s t : State), s.Running → i ≠ .reset → exec i s = .next t →
    let Burst := (∃ n, i = .runDecode n ∧ t.status.fault = false ∧ t.outcome ≠ 0x01 ∧ t.outcome ≠ 0x02)
    (t.status.fault = true ↔ ∃ c : FaultCode, t = faultedBy c.byte s) ∧
    (t.status.cfgValid = true ↔
      s.status.cfgValid = true ∨ ∃ data, i = .csrwr 0x01 data ∧ legalWrite 0x01 data = true) ∧
    (t.status.anchorValid = true ↔
      s.status.anchorValid = true ∨ ∃ secs frac idx, i = .anchor secs frac idx ∧ legalFraction frac = true) ∧
    (Burst ∨ (∃ n, i = .runDetect n ∧ t.status.fault = false ∧ t.outcome = 0x03) →
      t.status.tsValid = s.status.anchorValid) ∧
    (¬ (Burst ∨ (∃ n, i = .runDetect n ∧ t.status.fault = false ∧ t.outcome = 0x03)) →
      t.status.tsValid = s.status.tsValid) ∧
    (Burst ∨ (∃ n, i = .clsFruit n ∧ t.status.fault = false ∧ t.outcome ≠ 0x01) →
      (t.status.fruited = true ↔ t.outcome = 0x21)) ∧
    (¬ (Burst ∨ (∃ n, i = .clsFruit n ∧ t.status.fault = false ∧ t.outcome ≠ 0x01)) →
      t.status.fruited = s.status.fruited))

/-! ### The number system -/

/-- R8: each operation on finite operands is the exact result rounded once to nearest, ties to even, and a zero where that
is zero. What R8 takes over from IEEE 754 without repeating it is the model's (PRESUMED, log 8): gradual underflow and
overflow in `Rounds`, the results on infinities and of a division by zero, and which operations give a NaN. -/
def Obligations.ArithmeticIsCorrectlyRounded : Prop :=
  (∀ (n n' : Bool) (m m' : Nat) (e e' : Int),
    let a := Fp32.fin n m e
    let b := Fp32.fin n' m' e'
    let x := finValue n m e
    let y := finValue n' m' e'
    let Zero := fun r : Fp32 => ∃ sign, r = .fin sign 0 (-149)
    (x + y ≠ 0 → Rounds (x + y) (a.add b)) ∧ (x + y = 0 → Zero (a.add b)) ∧
    (x - y ≠ 0 → Rounds (x - y) (a.sub b)) ∧ (x - y = 0 → Zero (a.sub b)) ∧
    (x * y ≠ 0 → Rounds (x * y) (a.mul b)) ∧ (x * y = 0 → Zero (a.mul b)) ∧
    (x / y ≠ 0 → Rounds (x / y) (a.div b)) ∧ (x = 0 → y ≠ 0 → Zero (a.div b)) ∧
    (x ≠ 0 → y = 0 → a.div b = .inf (n ^^ n')) ∧ (x = 0 → y = 0 → (a.div b).isNan = true)) ∧
  (∀ n : Nat, n ≠ 0 → Rounds n (Fp32.ofNat n)) ∧ (∃ sign, Fp32.ofNat 0 = .fin sign 0 (-149)) ∧
  (∀ (n n' : Bool) (m : Nat) (e : Int),
    let i := Fp32.inf n
    let a := Fp32.fin n' m e
    i.add a = i ∧ a.add i = i ∧ i.sub a = i ∧ a.sub i = .inf (!n) ∧
    (m ≠ 0 → i.mul a = .inf (n ^^ n') ∧ a.mul i = .inf (n ^^ n')) ∧
    (m = 0 → (i.mul a).isNan = true ∧ (a.mul i).isNan = true) ∧
    i.div a = .inf (n ^^ n') ∧ a.div i = .fin (n ^^ n') 0 (-149) ∧
    i.add i = i ∧ (i.add (.inf (!n))).isNan = true ∧ (i.sub i).isNan = true ∧ i.sub (.inf (!n)) = i ∧
    i.mul (.inf n') = .inf (n ^^ n') ∧ (i.div (.inf n')).isNan = true) ∧
  (∀ (w : Word) (a : Fp32),
    ((Fp32.nan w).add a).isNan = true ∧ (a.add (.nan w)).isNan = true ∧
    ((Fp32.nan w).sub a).isNan = true ∧ (a.sub (.nan w)).isNan = true ∧
    ((Fp32.nan w).mul a).isNan = true ∧ (a.mul (.nan w)).isNan = true ∧
    ((Fp32.nan w).div a).isNan = true ∧ (a.div (.nan w)).isNan = true)

/-- R8: the comparisons order the values of finite operands, so `+0 = -0`, with the negative infinity below and the
positive infinity above every finite value, and are false on a NaN. -/
def Obligations.ComparisonsOrderTheValues : Prop :=
  (∀ (n n' : Bool) (m m' : Nat) (e e' : Int),
    let a := Fp32.fin n m e
    let b := Fp32.fin n' m' e'
    (a.lt b = true ↔ finValue n m e < finValue n' m' e') ∧
    (a.gt b = true ↔ finValue n' m' e' < finValue n m e) ∧
    (a.ge b = true ↔ finValue n' m' e' ≤ finValue n m e)) ∧
  (∀ (neg neg' n : Bool) (m : Nat) (e : Int),
    let i := Fp32.inf neg
    let a := Fp32.fin n m e
    (i.lt a = true ↔ neg = true) ∧ (a.lt i = true ↔ neg = false) ∧
    (i.gt a = true ↔ neg = false) ∧ (a.gt i = true ↔ neg = true) ∧
    (i.ge a = true ↔ neg = false) ∧ (a.ge i = true ↔ neg = true) ∧
    (i.lt (.inf neg') = true ↔ neg = true ∧ neg' = false) ∧
    (i.gt (.inf neg') = true ↔ neg = false ∧ neg' = true) ∧
    (i.ge (.inf neg') = true ↔ neg = false ∨ neg' = true)) ∧
  (∀ (w : Word) (a : Fp32),
    (Fp32.nan w).lt a = false ∧ a.lt (.nan w) = false ∧ (Fp32.nan w).gt a = false ∧ a.gt (.nan w) = false ∧
    (Fp32.nan w).ge a = false ∧ a.ge (.nan w) = false)

/-- R21, R74: the value of a pattern with the sign in bit 31, the exponent in bits 30:23 and the fraction in bits 22:0, in
the binary32 interchange format; reading it as a value and writing it back gives the pattern, NaN patterns included. -/
def Obligations.NumPatternsAndValues : Prop :=
  ∀ w : Word,
    let negative := decide (2 ^ 31 ≤ w.toNat)
    let exponent : Nat := w.toNat / 2 ^ 23 % 2 ^ 8
    let fraction : Nat := w.toNat % 2 ^ 23
    (exponent = 255 → fraction = 0 → Fp32.ofBits w = .inf negative) ∧
    (exponent = 255 → fraction ≠ 0 → Fp32.ofBits w = .nan w) ∧
    (exponent = 0 → ∃ m e, Fp32.ofBits w = .fin negative m e ∧
      (m : ℚ) * 2 ^ e = (fraction : ℚ) / 2 ^ 23 * 2 ^ (-126 : ℤ)) ∧
    (0 < exponent → exponent < 255 → ∃ m e, Fp32.ofBits w = .fin negative m e ∧
      (m : ℚ) * 2 ^ e = (1 + (fraction : ℚ) / 2 ^ 23) * 2 ^ ((exponent : ℤ) - 127)) ∧
    (Fp32.ofBits w).toBits = w
end

