-- ==== Sys2Proof/Laws/State.lean ====
section
/-! SUPPORT. One lemma per field per named update of the state: what the update leaves in the field. -/

namespace Sys2Proof.Machine

variable (s : State)

/-! ### `respond` -/

@[simp] theorem respond_config (code : Byte) (data : Word) : (respond code data s).config = s.config := rfl
@[simp] theorem respond_threshRatio (code : Byte) (data : Word) : (respond code data s).threshRatio = s.threshRatio := rfl
@[simp] theorem respond_longMask (code : Byte) (data : Word) : (respond code data s).longMask = s.longMask := rfl
@[simp] theorem respond_nocorrMask (code : Byte) (data : Word) : (respond code data s).nocorrMask = s.nocorrMask := rfl
@[simp] theorem respond_sliceLow (code : Byte) (data : Word) : (respond code data s).sliceLow = s.sliceLow := rfl
@[simp] theorem respond_sliceHigh (code : Byte) (data : Word) : (respond code data s).sliceHigh = s.sliceHigh := rfl
@[simp] theorem respond_sliceStrong (code : Byte) (data : Word) : (respond code data s).sliceStrong = s.sliceStrong := rfl
@[simp] theorem respond_spreadRatio (code : Byte) (data : Word) : (respond code data s).spreadRatio = s.spreadRatio := rfl
@[simp] theorem respond_lcbLimit (code : Byte) (data : Word) : (respond code data s).lcbLimit = s.lcbLimit := rfl
@[simp] theorem respond_absCount (code : Byte) (data : Word) : (respond code data s).absCount = s.absCount := rfl
@[simp] theorem respond_anchorSecs (code : Byte) (data : Word) : (respond code data s).anchorSecs = s.anchorSecs := rfl
@[simp] theorem respond_anchorFrac (code : Byte) (data : Word) : (respond code data s).anchorFrac = s.anchorFrac := rfl
@[simp] theorem respond_anchorIdx (code : Byte) (data : Word) : (respond code data s).anchorIdx = s.anchorIdx := rfl
@[simp] theorem respond_kind (code : Byte) (data : Word) : (respond code data s).kind = s.kind := rfl
@[simp] theorem respond_refLevel (code : Byte) (data : Word) : (respond code data s).refLevel = s.refLevel := rfl
@[simp] theorem respond_burstOffset (code : Byte) (data : Word) : (respond code data s).burstOffset = s.burstOffset := rfl
@[simp] theorem respond_lcbTotal (code : Byte) (data : Word) : (respond code data s).lcbTotal = s.lcbTotal := rfl
@[simp] theorem respond_fb (code : Byte) (data : Word) : (respond code data s).fb = s.fb := rfl
@[simp] theorem respond_lcbPos (code : Byte) (data : Word) : (respond code data s).lcbPos = s.lcbPos := rfl
@[simp] theorem respond_outcome (code : Byte) (data : Word) : (respond code data s).outcome = s.outcome := rfl
@[simp] theorem respond_consumed (code : Byte) (data : Word) : (respond code data s).consumed = s.consumed := rfl
@[simp] theorem respond_produced (code : Byte) (data : Word) : (respond code data s).produced = s.produced := rfl
@[simp] theorem respond_tsSecs (code : Byte) (data : Word) : (respond code data s).tsSecs = s.tsSecs := rfl
@[simp] theorem respond_tsFrac (code : Byte) (data : Word) : (respond code data s).tsFrac = s.tsFrac := rfl
@[simp] theorem respond_syndrome (code : Byte) (data : Word) : (respond code data s).syndrome = s.syndrome := rfl
@[simp] theorem respond_res0 (code : Byte) (data : Word) : (respond code data s).res0 = s.res0 := rfl
@[simp] theorem respond_res1 (code : Byte) (data : Word) : (respond code data s).res1 = s.res1 := rfl
@[simp] theorem respond_faultCode (code : Byte) (data : Word) : (respond code data s).faultCode = s.faultCode := rfl
@[simp] theorem respond_status (code : Byte) (data : Word) : (respond code data s).status = s.status := rfl
@[simp] theorem respond_response (code : Byte) (data : Word) : (respond code data s).response = some ⟨code, data⟩ := rfl
@[simp] theorem respond_calls (code : Byte) (data : Word) : (respond code data s).calls = s.calls := rfl

/-! ### `done` -/

@[simp] theorem done_config (code : Code) : (done code s).config = s.config := rfl
@[simp] theorem done_threshRatio (code : Code) : (done code s).threshRatio = s.threshRatio := rfl
@[simp] theorem done_longMask (code : Code) : (done code s).longMask = s.longMask := rfl
@[simp] theorem done_nocorrMask (code : Code) : (done code s).nocorrMask = s.nocorrMask := rfl
@[simp] theorem done_sliceLow (code : Code) : (done code s).sliceLow = s.sliceLow := rfl
@[simp] theorem done_sliceHigh (code : Code) : (done code s).sliceHigh = s.sliceHigh := rfl
@[simp] theorem done_sliceStrong (code : Code) : (done code s).sliceStrong = s.sliceStrong := rfl
@[simp] theorem done_spreadRatio (code : Code) : (done code s).spreadRatio = s.spreadRatio := rfl
@[simp] theorem done_lcbLimit (code : Code) : (done code s).lcbLimit = s.lcbLimit := rfl
@[simp] theorem done_absCount (code : Code) : (done code s).absCount = s.absCount := rfl
@[simp] theorem done_anchorSecs (code : Code) : (done code s).anchorSecs = s.anchorSecs := rfl
@[simp] theorem done_anchorFrac (code : Code) : (done code s).anchorFrac = s.anchorFrac := rfl
@[simp] theorem done_anchorIdx (code : Code) : (done code s).anchorIdx = s.anchorIdx := rfl
@[simp] theorem done_kind (code : Code) : (done code s).kind = s.kind := rfl
@[simp] theorem done_refLevel (code : Code) : (done code s).refLevel = s.refLevel := rfl
@[simp] theorem done_burstOffset (code : Code) : (done code s).burstOffset = s.burstOffset := rfl
@[simp] theorem done_lcbTotal (code : Code) : (done code s).lcbTotal = s.lcbTotal := rfl
@[simp] theorem done_fb (code : Code) : (done code s).fb = s.fb := rfl
@[simp] theorem done_lcbPos (code : Code) : (done code s).lcbPos = s.lcbPos := rfl
@[simp] theorem done_outcome (code : Code) : (done code s).outcome = code.byte := rfl
@[simp] theorem done_consumed (code : Code) : (done code s).consumed = s.consumed := rfl
@[simp] theorem done_produced (code : Code) : (done code s).produced = s.produced := rfl
@[simp] theorem done_tsSecs (code : Code) : (done code s).tsSecs = s.tsSecs := rfl
@[simp] theorem done_tsFrac (code : Code) : (done code s).tsFrac = s.tsFrac := rfl
@[simp] theorem done_syndrome (code : Code) : (done code s).syndrome = s.syndrome := rfl
@[simp] theorem done_res0 (code : Code) : (done code s).res0 = s.res0 := rfl
@[simp] theorem done_res1 (code : Code) : (done code s).res1 = s.res1 := rfl
@[simp] theorem done_faultCode (code : Code) : (done code s).faultCode = s.faultCode := rfl
@[simp] theorem done_status (code : Code) : (done code s).status = s.status := rfl
@[simp] theorem done_response (code : Code) : (done code s).response = some ⟨code.byte, 0⟩ := rfl
@[simp] theorem done_calls (code : Code) : (done code s).calls = s.calls := rfl

/-! ### `clearCounts` -/

@[simp] theorem clearCounts_config : (clearCounts s).config = s.config := rfl
@[simp] theorem clearCounts_threshRatio : (clearCounts s).threshRatio = s.threshRatio := rfl
@[simp] theorem clearCounts_longMask : (clearCounts s).longMask = s.longMask := rfl
@[simp] theorem clearCounts_nocorrMask : (clearCounts s).nocorrMask = s.nocorrMask := rfl
@[simp] theorem clearCounts_sliceLow : (clearCounts s).sliceLow = s.sliceLow := rfl
@[simp] theorem clearCounts_sliceHigh : (clearCounts s).sliceHigh = s.sliceHigh := rfl
@[simp] theorem clearCounts_sliceStrong : (clearCounts s).sliceStrong = s.sliceStrong := rfl
@[simp] theorem clearCounts_spreadRatio : (clearCounts s).spreadRatio = s.spreadRatio := rfl
@[simp] theorem clearCounts_lcbLimit : (clearCounts s).lcbLimit = s.lcbLimit := rfl
@[simp] theorem clearCounts_absCount : (clearCounts s).absCount = s.absCount := rfl
@[simp] theorem clearCounts_anchorSecs : (clearCounts s).anchorSecs = s.anchorSecs := rfl
@[simp] theorem clearCounts_anchorFrac : (clearCounts s).anchorFrac = s.anchorFrac := rfl
@[simp] theorem clearCounts_anchorIdx : (clearCounts s).anchorIdx = s.anchorIdx := rfl
@[simp] theorem clearCounts_kind : (clearCounts s).kind = s.kind := rfl
@[simp] theorem clearCounts_refLevel : (clearCounts s).refLevel = s.refLevel := rfl
@[simp] theorem clearCounts_burstOffset : (clearCounts s).burstOffset = s.burstOffset := rfl
@[simp] theorem clearCounts_lcbTotal : (clearCounts s).lcbTotal = s.lcbTotal := rfl
@[simp] theorem clearCounts_fb : (clearCounts s).fb = s.fb := rfl
@[simp] theorem clearCounts_lcbPos : (clearCounts s).lcbPos = s.lcbPos := rfl
@[simp] theorem clearCounts_outcome : (clearCounts s).outcome = s.outcome := rfl
@[simp] theorem clearCounts_consumed : (clearCounts s).consumed = 0 := rfl
@[simp] theorem clearCounts_produced : (clearCounts s).produced = 0 := rfl
@[simp] theorem clearCounts_tsSecs : (clearCounts s).tsSecs = s.tsSecs := rfl
@[simp] theorem clearCounts_tsFrac : (clearCounts s).tsFrac = s.tsFrac := rfl
@[simp] theorem clearCounts_syndrome : (clearCounts s).syndrome = s.syndrome := rfl
@[simp] theorem clearCounts_res0 : (clearCounts s).res0 = s.res0 := rfl
@[simp] theorem clearCounts_res1 : (clearCounts s).res1 = s.res1 := rfl
@[simp] theorem clearCounts_faultCode : (clearCounts s).faultCode = s.faultCode := rfl
@[simp] theorem clearCounts_status : (clearCounts s).status = s.status := rfl
@[simp] theorem clearCounts_response : (clearCounts s).response = s.response := rfl
@[simp] theorem clearCounts_calls : (clearCounts s).calls = s.calls := rfl

/-! ### `setCounts` -/

@[simp] theorem setCounts_config (c p : Nat) : (setCounts c p s).config = s.config := rfl
@[simp] theorem setCounts_threshRatio (c p : Nat) : (setCounts c p s).threshRatio = s.threshRatio := rfl
@[simp] theorem setCounts_longMask (c p : Nat) : (setCounts c p s).longMask = s.longMask := rfl
@[simp] theorem setCounts_nocorrMask (c p : Nat) : (setCounts c p s).nocorrMask = s.nocorrMask := rfl
@[simp] theorem setCounts_sliceLow (c p : Nat) : (setCounts c p s).sliceLow = s.sliceLow := rfl
@[simp] theorem setCounts_sliceHigh (c p : Nat) : (setCounts c p s).sliceHigh = s.sliceHigh := rfl
@[simp] theorem setCounts_sliceStrong (c p : Nat) : (setCounts c p s).sliceStrong = s.sliceStrong := rfl
@[simp] theorem setCounts_spreadRatio (c p : Nat) : (setCounts c p s).spreadRatio = s.spreadRatio := rfl
@[simp] theorem setCounts_lcbLimit (c p : Nat) : (setCounts c p s).lcbLimit = s.lcbLimit := rfl
@[simp] theorem setCounts_absCount (c p : Nat) : (setCounts c p s).absCount = s.absCount := rfl
@[simp] theorem setCounts_anchorSecs (c p : Nat) : (setCounts c p s).anchorSecs = s.anchorSecs := rfl
@[simp] theorem setCounts_anchorFrac (c p : Nat) : (setCounts c p s).anchorFrac = s.anchorFrac := rfl
@[simp] theorem setCounts_anchorIdx (c p : Nat) : (setCounts c p s).anchorIdx = s.anchorIdx := rfl
@[simp] theorem setCounts_kind (c p : Nat) : (setCounts c p s).kind = s.kind := rfl
@[simp] theorem setCounts_refLevel (c p : Nat) : (setCounts c p s).refLevel = s.refLevel := rfl
@[simp] theorem setCounts_burstOffset (c p : Nat) : (setCounts c p s).burstOffset = s.burstOffset := rfl
@[simp] theorem setCounts_lcbTotal (c p : Nat) : (setCounts c p s).lcbTotal = s.lcbTotal := rfl
@[simp] theorem setCounts_fb (c p : Nat) : (setCounts c p s).fb = s.fb := rfl
@[simp] theorem setCounts_lcbPos (c p : Nat) : (setCounts c p s).lcbPos = s.lcbPos := rfl
@[simp] theorem setCounts_outcome (c p : Nat) : (setCounts c p s).outcome = s.outcome := rfl
@[simp] theorem setCounts_consumed (c p : Nat) : (setCounts c p s).consumed = BitVec.ofNat 32 c := rfl
@[simp] theorem setCounts_produced (c p : Nat) : (setCounts c p s).produced = BitVec.ofNat 32 p := rfl
@[simp] theorem setCounts_tsSecs (c p : Nat) : (setCounts c p s).tsSecs = s.tsSecs := rfl
@[simp] theorem setCounts_tsFrac (c p : Nat) : (setCounts c p s).tsFrac = s.tsFrac := rfl
@[simp] theorem setCounts_syndrome (c p : Nat) : (setCounts c p s).syndrome = s.syndrome := rfl
@[simp] theorem setCounts_res0 (c p : Nat) : (setCounts c p s).res0 = s.res0 := rfl
@[simp] theorem setCounts_res1 (c p : Nat) : (setCounts c p s).res1 = s.res1 := rfl
@[simp] theorem setCounts_faultCode (c p : Nat) : (setCounts c p s).faultCode = s.faultCode := rfl
@[simp] theorem setCounts_status (c p : Nat) : (setCounts c p s).status = s.status := rfl
@[simp] theorem setCounts_response (c p : Nat) : (setCounts c p s).response = s.response := rfl
@[simp] theorem setCounts_calls (c p : Nat) : (setCounts c p s).calls = s.calls := rfl

/-! ### `advanceCount` -/

@[simp] theorem advanceCount_config (c : Nat) : (advanceCount c s).config = s.config := rfl
@[simp] theorem advanceCount_threshRatio (c : Nat) : (advanceCount c s).threshRatio = s.threshRatio := rfl
@[simp] theorem advanceCount_longMask (c : Nat) : (advanceCount c s).longMask = s.longMask := rfl
@[simp] theorem advanceCount_nocorrMask (c : Nat) : (advanceCount c s).nocorrMask = s.nocorrMask := rfl
@[simp] theorem advanceCount_sliceLow (c : Nat) : (advanceCount c s).sliceLow = s.sliceLow := rfl
@[simp] theorem advanceCount_sliceHigh (c : Nat) : (advanceCount c s).sliceHigh = s.sliceHigh := rfl
@[simp] theorem advanceCount_sliceStrong (c : Nat) : (advanceCount c s).sliceStrong = s.sliceStrong := rfl
@[simp] theorem advanceCount_spreadRatio (c : Nat) : (advanceCount c s).spreadRatio = s.spreadRatio := rfl
@[simp] theorem advanceCount_lcbLimit (c : Nat) : (advanceCount c s).lcbLimit = s.lcbLimit := rfl
@[simp] theorem advanceCount_absCount (c : Nat) : (advanceCount c s).absCount = BitVec.ofNat 64 (s.absCount.toNat + c) := rfl
@[simp] theorem advanceCount_anchorSecs (c : Nat) : (advanceCount c s).anchorSecs = s.anchorSecs := rfl
@[simp] theorem advanceCount_anchorFrac (c : Nat) : (advanceCount c s).anchorFrac = s.anchorFrac := rfl
@[simp] theorem advanceCount_anchorIdx (c : Nat) : (advanceCount c s).anchorIdx = s.anchorIdx := rfl
@[simp] theorem advanceCount_kind (c : Nat) : (advanceCount c s).kind = s.kind := rfl
@[simp] theorem advanceCount_refLevel (c : Nat) : (advanceCount c s).refLevel = s.refLevel := rfl
@[simp] theorem advanceCount_burstOffset (c : Nat) : (advanceCount c s).burstOffset = s.burstOffset := rfl
@[simp] theorem advanceCount_lcbTotal (c : Nat) : (advanceCount c s).lcbTotal = s.lcbTotal := rfl
@[simp] theorem advanceCount_fb (c : Nat) : (advanceCount c s).fb = s.fb := rfl
@[simp] theorem advanceCount_lcbPos (c : Nat) : (advanceCount c s).lcbPos = s.lcbPos := rfl
@[simp] theorem advanceCount_outcome (c : Nat) : (advanceCount c s).outcome = s.outcome := rfl
@[simp] theorem advanceCount_consumed (c : Nat) : (advanceCount c s).consumed = s.consumed := rfl
@[simp] theorem advanceCount_produced (c : Nat) : (advanceCount c s).produced = s.produced := rfl
@[simp] theorem advanceCount_tsSecs (c : Nat) : (advanceCount c s).tsSecs = s.tsSecs := rfl
@[simp] theorem advanceCount_tsFrac (c : Nat) : (advanceCount c s).tsFrac = s.tsFrac := rfl
@[simp] theorem advanceCount_syndrome (c : Nat) : (advanceCount c s).syndrome = s.syndrome := rfl
@[simp] theorem advanceCount_res0 (c : Nat) : (advanceCount c s).res0 = s.res0 := rfl
@[simp] theorem advanceCount_res1 (c : Nat) : (advanceCount c s).res1 = s.res1 := rfl
@[simp] theorem advanceCount_faultCode (c : Nat) : (advanceCount c s).faultCode = s.faultCode := rfl
@[simp] theorem advanceCount_status (c : Nat) : (advanceCount c s).status = s.status := rfl
@[simp] theorem advanceCount_response (c : Nat) : (advanceCount c s).response = s.response := rfl
@[simp] theorem advanceCount_calls (c : Nat) : (advanceCount c s).calls = s.calls := rfl

/-! ### `setBurst` -/

@[simp] theorem setBurst_config (i : Nat) (ref : Word) : (setBurst i ref s).config = s.config := rfl
@[simp] theorem setBurst_threshRatio (i : Nat) (ref : Word) : (setBurst i ref s).threshRatio = s.threshRatio := rfl
@[simp] theorem setBurst_longMask (i : Nat) (ref : Word) : (setBurst i ref s).longMask = s.longMask := rfl
@[simp] theorem setBurst_nocorrMask (i : Nat) (ref : Word) : (setBurst i ref s).nocorrMask = s.nocorrMask := rfl
@[simp] theorem setBurst_sliceLow (i : Nat) (ref : Word) : (setBurst i ref s).sliceLow = s.sliceLow := rfl
@[simp] theorem setBurst_sliceHigh (i : Nat) (ref : Word) : (setBurst i ref s).sliceHigh = s.sliceHigh := rfl
@[simp] theorem setBurst_sliceStrong (i : Nat) (ref : Word) : (setBurst i ref s).sliceStrong = s.sliceStrong := rfl
@[simp] theorem setBurst_spreadRatio (i : Nat) (ref : Word) : (setBurst i ref s).spreadRatio = s.spreadRatio := rfl
@[simp] theorem setBurst_lcbLimit (i : Nat) (ref : Word) : (setBurst i ref s).lcbLimit = s.lcbLimit := rfl
@[simp] theorem setBurst_absCount (i : Nat) (ref : Word) : (setBurst i ref s).absCount = s.absCount := rfl
@[simp] theorem setBurst_anchorSecs (i : Nat) (ref : Word) : (setBurst i ref s).anchorSecs = s.anchorSecs := rfl
@[simp] theorem setBurst_anchorFrac (i : Nat) (ref : Word) : (setBurst i ref s).anchorFrac = s.anchorFrac := rfl
@[simp] theorem setBurst_anchorIdx (i : Nat) (ref : Word) : (setBurst i ref s).anchorIdx = s.anchorIdx := rfl
@[simp] theorem setBurst_kind (i : Nat) (ref : Word) : (setBurst i ref s).kind = s.kind := rfl
@[simp] theorem setBurst_refLevel (i : Nat) (ref : Word) : (setBurst i ref s).refLevel = ref := rfl
@[simp] theorem setBurst_burstOffset (i : Nat) (ref : Word) : (setBurst i ref s).burstOffset = BitVec.ofNat 32 i := rfl
@[simp] theorem setBurst_lcbTotal (i : Nat) (ref : Word) : (setBurst i ref s).lcbTotal = s.lcbTotal := rfl
@[simp] theorem setBurst_fb (i : Nat) (ref : Word) : (setBurst i ref s).fb = s.fb := rfl
@[simp] theorem setBurst_lcbPos (i : Nat) (ref : Word) : (setBurst i ref s).lcbPos = s.lcbPos := rfl
@[simp] theorem setBurst_outcome (i : Nat) (ref : Word) : (setBurst i ref s).outcome = s.outcome := rfl
@[simp] theorem setBurst_consumed (i : Nat) (ref : Word) : (setBurst i ref s).consumed = s.consumed := rfl
@[simp] theorem setBurst_produced (i : Nat) (ref : Word) : (setBurst i ref s).produced = s.produced := rfl
@[simp] theorem setBurst_tsSecs (i : Nat) (ref : Word) : (setBurst i ref s).tsSecs = s.tsSecs := rfl
@[simp] theorem setBurst_tsFrac (i : Nat) (ref : Word) : (setBurst i ref s).tsFrac = s.tsFrac := rfl
@[simp] theorem setBurst_syndrome (i : Nat) (ref : Word) : (setBurst i ref s).syndrome = s.syndrome := rfl
@[simp] theorem setBurst_res0 (i : Nat) (ref : Word) : (setBurst i ref s).res0 = s.res0 := rfl
@[simp] theorem setBurst_res1 (i : Nat) (ref : Word) : (setBurst i ref s).res1 = s.res1 := rfl
@[simp] theorem setBurst_faultCode (i : Nat) (ref : Word) : (setBurst i ref s).faultCode = s.faultCode := rfl
@[simp] theorem setBurst_status (i : Nat) (ref : Word) : (setBurst i ref s).status = s.status := rfl
@[simp] theorem setBurst_response (i : Nat) (ref : Word) : (setBurst i ref s).response = s.response := rfl
@[simp] theorem setBurst_calls (i : Nat) (ref : Word) : (setBurst i ref s).calls = s.calls := rfl

/-! ### `setCfgValid` -/

@[simp] theorem setCfgValid_config : (setCfgValid s).config = s.config := rfl
@[simp] theorem setCfgValid_threshRatio : (setCfgValid s).threshRatio = s.threshRatio := rfl
@[simp] theorem setCfgValid_longMask : (setCfgValid s).longMask = s.longMask := rfl
@[simp] theorem setCfgValid_nocorrMask : (setCfgValid s).nocorrMask = s.nocorrMask := rfl
@[simp] theorem setCfgValid_sliceLow : (setCfgValid s).sliceLow = s.sliceLow := rfl
@[simp] theorem setCfgValid_sliceHigh : (setCfgValid s).sliceHigh = s.sliceHigh := rfl
@[simp] theorem setCfgValid_sliceStrong : (setCfgValid s).sliceStrong = s.sliceStrong := rfl
@[simp] theorem setCfgValid_spreadRatio : (setCfgValid s).spreadRatio = s.spreadRatio := rfl
@[simp] theorem setCfgValid_lcbLimit : (setCfgValid s).lcbLimit = s.lcbLimit := rfl
@[simp] theorem setCfgValid_absCount : (setCfgValid s).absCount = s.absCount := rfl
@[simp] theorem setCfgValid_anchorSecs : (setCfgValid s).anchorSecs = s.anchorSecs := rfl
@[simp] theorem setCfgValid_anchorFrac : (setCfgValid s).anchorFrac = s.anchorFrac := rfl
@[simp] theorem setCfgValid_anchorIdx : (setCfgValid s).anchorIdx = s.anchorIdx := rfl
@[simp] theorem setCfgValid_kind : (setCfgValid s).kind = s.kind := rfl
@[simp] theorem setCfgValid_refLevel : (setCfgValid s).refLevel = s.refLevel := rfl
@[simp] theorem setCfgValid_burstOffset : (setCfgValid s).burstOffset = s.burstOffset := rfl
@[simp] theorem setCfgValid_lcbTotal : (setCfgValid s).lcbTotal = s.lcbTotal := rfl
@[simp] theorem setCfgValid_fb : (setCfgValid s).fb = s.fb := rfl
@[simp] theorem setCfgValid_lcbPos : (setCfgValid s).lcbPos = s.lcbPos := rfl
@[simp] theorem setCfgValid_outcome : (setCfgValid s).outcome = s.outcome := rfl
@[simp] theorem setCfgValid_consumed : (setCfgValid s).consumed = s.consumed := rfl
@[simp] theorem setCfgValid_produced : (setCfgValid s).produced = s.produced := rfl
@[simp] theorem setCfgValid_tsSecs : (setCfgValid s).tsSecs = s.tsSecs := rfl
@[simp] theorem setCfgValid_tsFrac : (setCfgValid s).tsFrac = s.tsFrac := rfl
@[simp] theorem setCfgValid_syndrome : (setCfgValid s).syndrome = s.syndrome := rfl
@[simp] theorem setCfgValid_res0 : (setCfgValid s).res0 = s.res0 := rfl
@[simp] theorem setCfgValid_res1 : (setCfgValid s).res1 = s.res1 := rfl
@[simp] theorem setCfgValid_faultCode : (setCfgValid s).faultCode = s.faultCode := rfl
@[simp] theorem setCfgValid_status : (setCfgValid s).status = { s.status with cfgValid := true } := rfl
@[simp] theorem setCfgValid_response : (setCfgValid s).response = s.response := rfl
@[simp] theorem setCfgValid_calls : (setCfgValid s).calls = s.calls := rfl

/-! ### `setAnchorValid` -/

@[simp] theorem setAnchorValid_config : (setAnchorValid s).config = s.config := rfl
@[simp] theorem setAnchorValid_threshRatio : (setAnchorValid s).threshRatio = s.threshRatio := rfl
@[simp] theorem setAnchorValid_longMask : (setAnchorValid s).longMask = s.longMask := rfl
@[simp] theorem setAnchorValid_nocorrMask : (setAnchorValid s).nocorrMask = s.nocorrMask := rfl
@[simp] theorem setAnchorValid_sliceLow : (setAnchorValid s).sliceLow = s.sliceLow := rfl
@[simp] theorem setAnchorValid_sliceHigh : (setAnchorValid s).sliceHigh = s.sliceHigh := rfl
@[simp] theorem setAnchorValid_sliceStrong : (setAnchorValid s).sliceStrong = s.sliceStrong := rfl
@[simp] theorem setAnchorValid_spreadRatio : (setAnchorValid s).spreadRatio = s.spreadRatio := rfl
@[simp] theorem setAnchorValid_lcbLimit : (setAnchorValid s).lcbLimit = s.lcbLimit := rfl
@[simp] theorem setAnchorValid_absCount : (setAnchorValid s).absCount = s.absCount := rfl
@[simp] theorem setAnchorValid_anchorSecs : (setAnchorValid s).anchorSecs = s.anchorSecs := rfl
@[simp] theorem setAnchorValid_anchorFrac : (setAnchorValid s).anchorFrac = s.anchorFrac := rfl
@[simp] theorem setAnchorValid_anchorIdx : (setAnchorValid s).anchorIdx = s.anchorIdx := rfl
@[simp] theorem setAnchorValid_kind : (setAnchorValid s).kind = s.kind := rfl
@[simp] theorem setAnchorValid_refLevel : (setAnchorValid s).refLevel = s.refLevel := rfl
@[simp] theorem setAnchorValid_burstOffset : (setAnchorValid s).burstOffset = s.burstOffset := rfl
@[simp] theorem setAnchorValid_lcbTotal : (setAnchorValid s).lcbTotal = s.lcbTotal := rfl
@[simp] theorem setAnchorValid_fb : (setAnchorValid s).fb = s.fb := rfl
@[simp] theorem setAnchorValid_lcbPos : (setAnchorValid s).lcbPos = s.lcbPos := rfl
@[simp] theorem setAnchorValid_outcome : (setAnchorValid s).outcome = s.outcome := rfl
@[simp] theorem setAnchorValid_consumed : (setAnchorValid s).consumed = s.consumed := rfl
@[simp] theorem setAnchorValid_produced : (setAnchorValid s).produced = s.produced := rfl
@[simp] theorem setAnchorValid_tsSecs : (setAnchorValid s).tsSecs = s.tsSecs := rfl
@[simp] theorem setAnchorValid_tsFrac : (setAnchorValid s).tsFrac = s.tsFrac := rfl
@[simp] theorem setAnchorValid_syndrome : (setAnchorValid s).syndrome = s.syndrome := rfl
@[simp] theorem setAnchorValid_res0 : (setAnchorValid s).res0 = s.res0 := rfl
@[simp] theorem setAnchorValid_res1 : (setAnchorValid s).res1 = s.res1 := rfl
@[simp] theorem setAnchorValid_faultCode : (setAnchorValid s).faultCode = s.faultCode := rfl
@[simp] theorem setAnchorValid_status : (setAnchorValid s).status = { s.status with anchorValid := true } := rfl
@[simp] theorem setAnchorValid_response : (setAnchorValid s).response = s.response := rfl
@[simp] theorem setAnchorValid_calls : (setAnchorValid s).calls = s.calls := rfl

/-! ### `setTsValid` -/

@[simp] theorem setTsValid_config (b : Bool) : (setTsValid b s).config = s.config := rfl
@[simp] theorem setTsValid_threshRatio (b : Bool) : (setTsValid b s).threshRatio = s.threshRatio := rfl
@[simp] theorem setTsValid_longMask (b : Bool) : (setTsValid b s).longMask = s.longMask := rfl
@[simp] theorem setTsValid_nocorrMask (b : Bool) : (setTsValid b s).nocorrMask = s.nocorrMask := rfl
@[simp] theorem setTsValid_sliceLow (b : Bool) : (setTsValid b s).sliceLow = s.sliceLow := rfl
@[simp] theorem setTsValid_sliceHigh (b : Bool) : (setTsValid b s).sliceHigh = s.sliceHigh := rfl
@[simp] theorem setTsValid_sliceStrong (b : Bool) : (setTsValid b s).sliceStrong = s.sliceStrong := rfl
@[simp] theorem setTsValid_spreadRatio (b : Bool) : (setTsValid b s).spreadRatio = s.spreadRatio := rfl
@[simp] theorem setTsValid_lcbLimit (b : Bool) : (setTsValid b s).lcbLimit = s.lcbLimit := rfl
@[simp] theorem setTsValid_absCount (b : Bool) : (setTsValid b s).absCount = s.absCount := rfl
@[simp] theorem setTsValid_anchorSecs (b : Bool) : (setTsValid b s).anchorSecs = s.anchorSecs := rfl
@[simp] theorem setTsValid_anchorFrac (b : Bool) : (setTsValid b s).anchorFrac = s.anchorFrac := rfl
@[simp] theorem setTsValid_anchorIdx (b : Bool) : (setTsValid b s).anchorIdx = s.anchorIdx := rfl
@[simp] theorem setTsValid_kind (b : Bool) : (setTsValid b s).kind = s.kind := rfl
@[simp] theorem setTsValid_refLevel (b : Bool) : (setTsValid b s).refLevel = s.refLevel := rfl
@[simp] theorem setTsValid_burstOffset (b : Bool) : (setTsValid b s).burstOffset = s.burstOffset := rfl
@[simp] theorem setTsValid_lcbTotal (b : Bool) : (setTsValid b s).lcbTotal = s.lcbTotal := rfl
@[simp] theorem setTsValid_fb (b : Bool) : (setTsValid b s).fb = s.fb := rfl
@[simp] theorem setTsValid_lcbPos (b : Bool) : (setTsValid b s).lcbPos = s.lcbPos := rfl
@[simp] theorem setTsValid_outcome (b : Bool) : (setTsValid b s).outcome = s.outcome := rfl
@[simp] theorem setTsValid_consumed (b : Bool) : (setTsValid b s).consumed = s.consumed := rfl
@[simp] theorem setTsValid_produced (b : Bool) : (setTsValid b s).produced = s.produced := rfl
@[simp] theorem setTsValid_tsSecs (b : Bool) : (setTsValid b s).tsSecs = s.tsSecs := rfl
@[simp] theorem setTsValid_tsFrac (b : Bool) : (setTsValid b s).tsFrac = s.tsFrac := rfl
@[simp] theorem setTsValid_syndrome (b : Bool) : (setTsValid b s).syndrome = s.syndrome := rfl
@[simp] theorem setTsValid_res0 (b : Bool) : (setTsValid b s).res0 = s.res0 := rfl
@[simp] theorem setTsValid_res1 (b : Bool) : (setTsValid b s).res1 = s.res1 := rfl
@[simp] theorem setTsValid_faultCode (b : Bool) : (setTsValid b s).faultCode = s.faultCode := rfl
@[simp] theorem setTsValid_status (b : Bool) : (setTsValid b s).status = { s.status with tsValid := b } := rfl
@[simp] theorem setTsValid_response (b : Bool) : (setTsValid b s).response = s.response := rfl
@[simp] theorem setTsValid_calls (b : Bool) : (setTsValid b s).calls = s.calls := rfl

/-! ### `setFruited` -/

@[simp] theorem setFruited_config (b : Bool) : (setFruited b s).config = s.config := rfl
@[simp] theorem setFruited_threshRatio (b : Bool) : (setFruited b s).threshRatio = s.threshRatio := rfl
@[simp] theorem setFruited_longMask (b : Bool) : (setFruited b s).longMask = s.longMask := rfl
@[simp] theorem setFruited_nocorrMask (b : Bool) : (setFruited b s).nocorrMask = s.nocorrMask := rfl
@[simp] theorem setFruited_sliceLow (b : Bool) : (setFruited b s).sliceLow = s.sliceLow := rfl
@[simp] theorem setFruited_sliceHigh (b : Bool) : (setFruited b s).sliceHigh = s.sliceHigh := rfl
@[simp] theorem setFruited_sliceStrong (b : Bool) : (setFruited b s).sliceStrong = s.sliceStrong := rfl
@[simp] theorem setFruited_spreadRatio (b : Bool) : (setFruited b s).spreadRatio = s.spreadRatio := rfl
@[simp] theorem setFruited_lcbLimit (b : Bool) : (setFruited b s).lcbLimit = s.lcbLimit := rfl
@[simp] theorem setFruited_absCount (b : Bool) : (setFruited b s).absCount = s.absCount := rfl
@[simp] theorem setFruited_anchorSecs (b : Bool) : (setFruited b s).anchorSecs = s.anchorSecs := rfl
@[simp] theorem setFruited_anchorFrac (b : Bool) : (setFruited b s).anchorFrac = s.anchorFrac := rfl
@[simp] theorem setFruited_anchorIdx (b : Bool) : (setFruited b s).anchorIdx = s.anchorIdx := rfl
@[simp] theorem setFruited_kind (b : Bool) : (setFruited b s).kind = s.kind := rfl
@[simp] theorem setFruited_refLevel (b : Bool) : (setFruited b s).refLevel = s.refLevel := rfl
@[simp] theorem setFruited_burstOffset (b : Bool) : (setFruited b s).burstOffset = s.burstOffset := rfl
@[simp] theorem setFruited_lcbTotal (b : Bool) : (setFruited b s).lcbTotal = s.lcbTotal := rfl
@[simp] theorem setFruited_fb (b : Bool) : (setFruited b s).fb = s.fb := rfl
@[simp] theorem setFruited_lcbPos (b : Bool) : (setFruited b s).lcbPos = s.lcbPos := rfl
@[simp] theorem setFruited_outcome (b : Bool) : (setFruited b s).outcome = s.outcome := rfl
@[simp] theorem setFruited_consumed (b : Bool) : (setFruited b s).consumed = s.consumed := rfl
@[simp] theorem setFruited_produced (b : Bool) : (setFruited b s).produced = s.produced := rfl
@[simp] theorem setFruited_tsSecs (b : Bool) : (setFruited b s).tsSecs = s.tsSecs := rfl
@[simp] theorem setFruited_tsFrac (b : Bool) : (setFruited b s).tsFrac = s.tsFrac := rfl
@[simp] theorem setFruited_syndrome (b : Bool) : (setFruited b s).syndrome = s.syndrome := rfl
@[simp] theorem setFruited_res0 (b : Bool) : (setFruited b s).res0 = s.res0 := rfl
@[simp] theorem setFruited_res1 (b : Bool) : (setFruited b s).res1 = s.res1 := rfl
@[simp] theorem setFruited_faultCode (b : Bool) : (setFruited b s).faultCode = s.faultCode := rfl
@[simp] theorem setFruited_status (b : Bool) : (setFruited b s).status = { s.status with fruited := b } := rfl
@[simp] theorem setFruited_response (b : Bool) : (setFruited b s).response = s.response := rfl
@[simp] theorem setFruited_calls (b : Bool) : (setFruited b s).calls = s.calls := rfl

/-! ### `clearFrame` -/

@[simp] theorem clearFrame_config : (clearFrame s).config = s.config := rfl
@[simp] theorem clearFrame_threshRatio : (clearFrame s).threshRatio = s.threshRatio := rfl
@[simp] theorem clearFrame_longMask : (clearFrame s).longMask = s.longMask := rfl
@[simp] theorem clearFrame_nocorrMask : (clearFrame s).nocorrMask = s.nocorrMask := rfl
@[simp] theorem clearFrame_sliceLow : (clearFrame s).sliceLow = s.sliceLow := rfl
@[simp] theorem clearFrame_sliceHigh : (clearFrame s).sliceHigh = s.sliceHigh := rfl
@[simp] theorem clearFrame_sliceStrong : (clearFrame s).sliceStrong = s.sliceStrong := rfl
@[simp] theorem clearFrame_spreadRatio : (clearFrame s).spreadRatio = s.spreadRatio := rfl
@[simp] theorem clearFrame_lcbLimit : (clearFrame s).lcbLimit = s.lcbLimit := rfl
@[simp] theorem clearFrame_absCount : (clearFrame s).absCount = s.absCount := rfl
@[simp] theorem clearFrame_anchorSecs : (clearFrame s).anchorSecs = s.anchorSecs := rfl
@[simp] theorem clearFrame_anchorFrac : (clearFrame s).anchorFrac = s.anchorFrac := rfl
@[simp] theorem clearFrame_anchorIdx : (clearFrame s).anchorIdx = s.anchorIdx := rfl
@[simp] theorem clearFrame_kind : (clearFrame s).kind = s.kind := rfl
@[simp] theorem clearFrame_refLevel : (clearFrame s).refLevel = s.refLevel := rfl
@[simp] theorem clearFrame_burstOffset : (clearFrame s).burstOffset = s.burstOffset := rfl
@[simp] theorem clearFrame_lcbTotal : (clearFrame s).lcbTotal = 0 := rfl
@[simp] theorem clearFrame_fb : (clearFrame s).fb = Vector.replicate 14 0 := rfl
@[simp] theorem clearFrame_lcbPos : (clearFrame s).lcbPos = Vector.replicate 24 0 := rfl
@[simp] theorem clearFrame_outcome : (clearFrame s).outcome = s.outcome := rfl
@[simp] theorem clearFrame_consumed : (clearFrame s).consumed = s.consumed := rfl
@[simp] theorem clearFrame_produced : (clearFrame s).produced = s.produced := rfl
@[simp] theorem clearFrame_tsSecs : (clearFrame s).tsSecs = s.tsSecs := rfl
@[simp] theorem clearFrame_tsFrac : (clearFrame s).tsFrac = s.tsFrac := rfl
@[simp] theorem clearFrame_syndrome : (clearFrame s).syndrome = s.syndrome := rfl
@[simp] theorem clearFrame_res0 : (clearFrame s).res0 = s.res0 := rfl
@[simp] theorem clearFrame_res1 : (clearFrame s).res1 = s.res1 := rfl
@[simp] theorem clearFrame_faultCode : (clearFrame s).faultCode = s.faultCode := rfl
@[simp] theorem clearFrame_status : (clearFrame s).status = s.status := rfl
@[simp] theorem clearFrame_response : (clearFrame s).response = s.response := rfl
@[simp] theorem clearFrame_calls : (clearFrame s).calls = s.calls := rfl

/-! ### `classify` -/

@[simp] theorem classify_config : (classify s).config = s.config := rfl
@[simp] theorem classify_threshRatio : (classify s).threshRatio = s.threshRatio := rfl
@[simp] theorem classify_longMask : (classify s).longMask = s.longMask := rfl
@[simp] theorem classify_nocorrMask : (classify s).nocorrMask = s.nocorrMask := rfl
@[simp] theorem classify_sliceLow : (classify s).sliceLow = s.sliceLow := rfl
@[simp] theorem classify_sliceHigh : (classify s).sliceHigh = s.sliceHigh := rfl
@[simp] theorem classify_sliceStrong : (classify s).sliceStrong = s.sliceStrong := rfl
@[simp] theorem classify_spreadRatio : (classify s).spreadRatio = s.spreadRatio := rfl
@[simp] theorem classify_lcbLimit : (classify s).lcbLimit = s.lcbLimit := rfl
@[simp] theorem classify_absCount : (classify s).absCount = s.absCount := rfl
@[simp] theorem classify_anchorSecs : (classify s).anchorSecs = s.anchorSecs := rfl
@[simp] theorem classify_anchorFrac : (classify s).anchorFrac = s.anchorFrac := rfl
@[simp] theorem classify_anchorIdx : (classify s).anchorIdx = s.anchorIdx := rfl
@[simp] theorem classify_kind : (classify s).kind = kindOf s.longMask (msgType s.fb) := rfl
@[simp] theorem classify_refLevel : (classify s).refLevel = s.refLevel := rfl
@[simp] theorem classify_burstOffset : (classify s).burstOffset = s.burstOffset := rfl
@[simp] theorem classify_lcbTotal : (classify s).lcbTotal = s.lcbTotal := rfl
@[simp] theorem classify_fb : (classify s).fb = s.fb := rfl
@[simp] theorem classify_lcbPos : (classify s).lcbPos = s.lcbPos := rfl
@[simp] theorem classify_outcome : (classify s).outcome = s.outcome := rfl
@[simp] theorem classify_consumed : (classify s).consumed = s.consumed := rfl
@[simp] theorem classify_produced : (classify s).produced = s.produced := rfl
@[simp] theorem classify_tsSecs : (classify s).tsSecs = s.tsSecs := rfl
@[simp] theorem classify_tsFrac : (classify s).tsFrac = s.tsFrac := rfl
@[simp] theorem classify_syndrome : (classify s).syndrome = s.syndrome := rfl
@[simp] theorem classify_res0 : (classify s).res0 = s.res0 := rfl
@[simp] theorem classify_res1 : (classify s).res1 = s.res1 := rfl
@[simp] theorem classify_faultCode : (classify s).faultCode = s.faultCode := rfl
@[simp] theorem classify_status : (classify s).status = s.status := rfl
@[simp] theorem classify_response : (classify s).response = s.response := rfl
@[simp] theorem classify_calls : (classify s).calls = s.calls := rfl

/-! ### `retireCall` -/

@[simp] theorem retireCall_config : (retireCall s).config = s.config := rfl
@[simp] theorem retireCall_threshRatio : (retireCall s).threshRatio = s.threshRatio := rfl
@[simp] theorem retireCall_longMask : (retireCall s).longMask = s.longMask := rfl
@[simp] theorem retireCall_nocorrMask : (retireCall s).nocorrMask = s.nocorrMask := rfl
@[simp] theorem retireCall_sliceLow : (retireCall s).sliceLow = s.sliceLow := rfl
@[simp] theorem retireCall_sliceHigh : (retireCall s).sliceHigh = s.sliceHigh := rfl
@[simp] theorem retireCall_sliceStrong : (retireCall s).sliceStrong = s.sliceStrong := rfl
@[simp] theorem retireCall_spreadRatio : (retireCall s).spreadRatio = s.spreadRatio := rfl
@[simp] theorem retireCall_lcbLimit : (retireCall s).lcbLimit = s.lcbLimit := rfl
@[simp] theorem retireCall_absCount : (retireCall s).absCount = s.absCount := rfl
@[simp] theorem retireCall_anchorSecs : (retireCall s).anchorSecs = s.anchorSecs := rfl
@[simp] theorem retireCall_anchorFrac : (retireCall s).anchorFrac = s.anchorFrac := rfl
@[simp] theorem retireCall_anchorIdx : (retireCall s).anchorIdx = s.anchorIdx := rfl
@[simp] theorem retireCall_kind : (retireCall s).kind = s.kind := rfl
@[simp] theorem retireCall_refLevel : (retireCall s).refLevel = s.refLevel := rfl
@[simp] theorem retireCall_burstOffset : (retireCall s).burstOffset = s.burstOffset := rfl
@[simp] theorem retireCall_lcbTotal : (retireCall s).lcbTotal = s.lcbTotal := rfl
@[simp] theorem retireCall_fb : (retireCall s).fb = s.fb := rfl
@[simp] theorem retireCall_lcbPos : (retireCall s).lcbPos = s.lcbPos := rfl
@[simp] theorem retireCall_outcome : (retireCall s).outcome = s.outcome := rfl
@[simp] theorem retireCall_consumed : (retireCall s).consumed = s.consumed := rfl
@[simp] theorem retireCall_produced : (retireCall s).produced = s.produced := rfl
@[simp] theorem retireCall_tsSecs : (retireCall s).tsSecs = s.tsSecs := rfl
@[simp] theorem retireCall_tsFrac : (retireCall s).tsFrac = s.tsFrac := rfl
@[simp] theorem retireCall_syndrome : (retireCall s).syndrome = s.syndrome := rfl
@[simp] theorem retireCall_res0 : (retireCall s).res0 = s.res0 := rfl
@[simp] theorem retireCall_res1 : (retireCall s).res1 = s.res1 := rfl
@[simp] theorem retireCall_faultCode : (retireCall s).faultCode = s.faultCode := rfl
@[simp] theorem retireCall_status : (retireCall s).status = s.status := rfl
@[simp] theorem retireCall_response : (retireCall s).response = s.response := rfl
@[simp] theorem retireCall_calls : (retireCall s).calls = s.calls.tail := rfl

/-! ### `presentCall` -/

@[simp] theorem presentCall_config (words : List Word) (window : Window) : (presentCall words window s).config = s.config := rfl
@[simp] theorem presentCall_threshRatio (words : List Word) (window : Window) : (presentCall words window s).threshRatio = s.threshRatio := rfl
@[simp] theorem presentCall_longMask (words : List Word) (window : Window) : (presentCall words window s).longMask = s.longMask := rfl
@[simp] theorem presentCall_nocorrMask (words : List Word) (window : Window) : (presentCall words window s).nocorrMask = s.nocorrMask := rfl
@[simp] theorem presentCall_sliceLow (words : List Word) (window : Window) : (presentCall words window s).sliceLow = s.sliceLow := rfl
@[simp] theorem presentCall_sliceHigh (words : List Word) (window : Window) : (presentCall words window s).sliceHigh = s.sliceHigh := rfl
@[simp] theorem presentCall_sliceStrong (words : List Word) (window : Window) : (presentCall words window s).sliceStrong = s.sliceStrong := rfl
@[simp] theorem presentCall_spreadRatio (words : List Word) (window : Window) : (presentCall words window s).spreadRatio = s.spreadRatio := rfl
@[simp] theorem presentCall_lcbLimit (words : List Word) (window : Window) : (presentCall words window s).lcbLimit = s.lcbLimit := rfl
@[simp] theorem presentCall_absCount (words : List Word) (window : Window) : (presentCall words window s).absCount = s.absCount := rfl
@[simp] theorem presentCall_anchorSecs (words : List Word) (window : Window) : (presentCall words window s).anchorSecs = s.anchorSecs := rfl
@[simp] theorem presentCall_anchorFrac (words : List Word) (window : Window) : (presentCall words window s).anchorFrac = s.anchorFrac := rfl
@[simp] theorem presentCall_anchorIdx (words : List Word) (window : Window) : (presentCall words window s).anchorIdx = s.anchorIdx := rfl
@[simp] theorem presentCall_kind (words : List Word) (window : Window) : (presentCall words window s).kind = s.kind := rfl
@[simp] theorem presentCall_refLevel (words : List Word) (window : Window) : (presentCall words window s).refLevel = s.refLevel := rfl
@[simp] theorem presentCall_burstOffset (words : List Word) (window : Window) : (presentCall words window s).burstOffset = s.burstOffset := rfl
@[simp] theorem presentCall_lcbTotal (words : List Word) (window : Window) : (presentCall words window s).lcbTotal = s.lcbTotal := rfl
@[simp] theorem presentCall_fb (words : List Word) (window : Window) : (presentCall words window s).fb = s.fb := rfl
@[simp] theorem presentCall_lcbPos (words : List Word) (window : Window) : (presentCall words window s).lcbPos = s.lcbPos := rfl
@[simp] theorem presentCall_outcome (words : List Word) (window : Window) : (presentCall words window s).outcome = s.outcome := rfl
@[simp] theorem presentCall_consumed (words : List Word) (window : Window) : (presentCall words window s).consumed = s.consumed := rfl
@[simp] theorem presentCall_produced (words : List Word) (window : Window) : (presentCall words window s).produced = s.produced := rfl
@[simp] theorem presentCall_tsSecs (words : List Word) (window : Window) : (presentCall words window s).tsSecs = s.tsSecs := rfl
@[simp] theorem presentCall_tsFrac (words : List Word) (window : Window) : (presentCall words window s).tsFrac = s.tsFrac := rfl
@[simp] theorem presentCall_syndrome (words : List Word) (window : Window) : (presentCall words window s).syndrome = s.syndrome := rfl
@[simp] theorem presentCall_res0 (words : List Word) (window : Window) : (presentCall words window s).res0 = s.res0 := rfl
@[simp] theorem presentCall_res1 (words : List Word) (window : Window) : (presentCall words window s).res1 = s.res1 := rfl
@[simp] theorem presentCall_faultCode (words : List Word) (window : Window) : (presentCall words window s).faultCode = s.faultCode := rfl
@[simp] theorem presentCall_status (words : List Word) (window : Window) : (presentCall words window s).status = s.status := rfl
@[simp] theorem presentCall_response (words : List Word) (window : Window) : (presentCall words window s).response = s.response := rfl
@[simp] theorem presentCall_calls (words : List Word) (window : Window) : (presentCall words window s).calls = ⟨words, window⟩ :: s.calls := rfl

end Sys2Proof.Machine
end

