-- ==== Sys2Proof/Laws/Window.lean ====
section
/-! SUPPORT. Window reads (20_memory.md R71, R75): a read is defined exactly inside the window, so the detector's and the
slicer's loops answer whenever every index they name is inside. -/

namespace Sys2Proof.Machine

theorem winS_isSome (w : Window) (j : Nat) : (winS w j).isSome ↔ j < w.length := by
  simp [winS]

theorem winR_isSome (w : Window) (j : Nat) : (winR w j).isSome ↔ j < w.length := by
  simp [winR]

theorem winS_of_lt {w : Window} {j : Nat} (h : j < w.length) : ∃ x, winS w j = some x :=
  Option.isSome_iff_exists.mp ((winS_isSome w j).mpr h)

theorem winR_of_lt {w : Window} {j : Nat} (h : j < w.length) : ∃ x, winR w j = some x :=
  Option.isSome_iff_exists.mp ((winR_isSome w j).mpr h)

/-- The four-pulse sum is defined when its last pulse is inside the window. -/
theorem corr_of_lt {spc : Nat} {w : Window} {a : Nat} (h : a + 9 * spc < w.length) :
    ∃ x, corr spc w a = some x := by
  obtain ⟨s0, h0⟩ := winS_of_lt (w := w) (j := a) (by omega)
  obtain ⟨s1, h1⟩ := winS_of_lt (w := w) (j := a + 2 * spc) (by omega)
  obtain ⟨s2, h2⟩ := winS_of_lt (w := w) (j := a + 7 * spc) (by omega)
  obtain ⟨s3, h3⟩ := winS_of_lt (w := w) (j := a + 9 * spc) (by omega)
  exact ⟨_, by simp [corr, h0, h1, h2, h3]; rfl⟩

/-- A search for a bad sample is defined when every index is inside the window. -/
theorem anySample_of_lt {w : Window} {base : Nat} (bad : Fp32 → Bool) :
    ∀ {ds : List Nat}, (∀ d ∈ ds, base + d < w.length) → ∃ b, anySample w base bad ds = some b
  | [], _ => ⟨false, rfl⟩
  | d :: ds, h => by
    obtain ⟨x, hx⟩ := winS_of_lt (h d (by simp))
    obtain ⟨b, hb⟩ := anySample_of_lt bad (ds := ds) fun d' hd' => h d' (by simp [hd'])
    by_cases hbad : bad x = true
    · exact ⟨true, by simp [anySample, hx, hbad]⟩
    · exact ⟨b, by simp [anySample, hx, hbad, hb]⟩

/-- What a search that found nothing says of every sample. -/
theorem anySample_false {w : Window} {base : Nat} {bad : Fp32 → Bool} :
    ∀ {ds : List Nat}, anySample w base bad ds = some false →
      ∀ d ∈ ds, ∃ x, winS w (base + d) = some x ∧ bad x = false
  | [], _ => by simp
  | d :: ds, h => by
    simp only [anySample, Option.bind_eq_bind, Option.bind_eq_some_iff] at h
    obtain ⟨x, hx, h⟩ := h
    by_cases hbad : bad x = true
    · simp [hbad] at h
    · simp only [hbad, Bool.false_eq_true, if_false] at h
      intro d' hd'
      rcases List.mem_cons.mp hd' with rfl | hd'
      · exact ⟨x, hx, by simpa using hbad⟩
      · exact anySample_false h d' hd'

/-- What a search that found a bad sample says: one of the named samples is bad. -/
theorem anySample_true {w : Window} {base : Nat} {bad : Fp32 → Bool} :
    ∀ {ds : List Nat}, anySample w base bad ds = some true →
      ∃ d ∈ ds, ∃ x, winS w (base + d) = some x ∧ bad x = true
  | [], h => by simp [anySample] at h
  | d :: ds, h => by
    simp only [anySample, Option.bind_eq_bind, Option.bind_eq_some_iff] at h
    obtain ⟨x, hx, h⟩ := h
    by_cases hbad : bad x = true
    · exact ⟨d, by simp, x, hx, hbad⟩
    · simp only [hbad, Bool.false_eq_true, if_false] at h
      obtain ⟨d', hd', rest⟩ := anySample_true h
      exact ⟨d', by simp [hd'], rest⟩

/-- A search for a bad sample depends on the samples it names. -/
theorem anySample_congr {w w' : Window} {base : Nat} (bad : Fp32 → Bool) :
    ∀ {ds : List Nat}, (∀ d ∈ ds, winS w (base + d) = winS w' (base + d)) →
      anySample w base bad ds = anySample w' base bad ds
  | [], _ => rfl
  | d :: ds, h => by
    simp only [anySample, h d (by simp), anySample_congr bad (ds := ds) fun d' hd' => h d' (by simp [hd'])]

/-- The four-pulse sum depends on the four samples. -/
theorem corr_congr {spc : Nat} {w w' : Window} {a : Nat}
    (h : ∀ d ∈ pulseOffsets spc, winS w (a + d) = winS w' (a + d)) : corr spc w a = corr spc w' a := by
  simp only [pulseOffsets, List.forall_mem_cons, Nat.add_zero] at h
  simp only [corr, h]

/-- What refinement answers: an offset in reach, every sum before it rising, and no rise there unless the bound is used
up (R165). -/
theorem refine_spec {spc : Nat} {w : Window} :
    ∀ {n i k : Nat}, refine spc w n i = some k →
      i ≤ k ∧ k ≤ i + n ∧ (∀ a, i ≤ a → a < k → SumRises spc w a) ∧ (k < i + n → ¬ SumRises spc w k)
  | 0, i, k, h => by
    simp only [refine, Option.some.injEq] at h
    subst h
    exact ⟨le_rfl, le_rfl, fun a h1 h2 => by omega, fun h => by omega⟩
  | n + 1, i, k, h => by
    simp only [refine, Option.bind_eq_bind, Option.bind_eq_some_iff] at h
    obtain ⟨y, hy, x, hx, h⟩ := h
    by_cases hgt : y.gt x = true
    · simp only [hgt, if_true] at h
      obtain ⟨h1, h2, h3, h4⟩ := refine_spec h
      refine ⟨by omega, by omega, fun a ha hk => ?_, fun hk => h4 (by omega)⟩
      rcases Nat.eq_or_lt_of_le ha with rfl | ha
      · exact ⟨x, y, hx, hy, hgt⟩
      · exact h3 a ha hk
    · simp only [hgt, Bool.false_eq_true, if_false, Option.pure_def, Option.some.injEq] at h
      subst h
      refine ⟨le_rfl, by omega, fun a h1 h2 => by omega, ?_⟩
      rintro - ⟨x', y', hx', hy', hgt'⟩
      simp only [hx, Option.some.injEq] at hx'
      simp only [hy, Option.some.injEq] at hy'
      subst hx' hy'
      exact hgt hgt'

/-- Refinement is defined when every sum it may compare is, moves later only and by at most its bound (R165). -/
theorem refine_of_lt {spc : Nat} {w : Window} :
    ∀ {n i : Nat}, i + n + 9 * spc < w.length → ∃ k, refine spc w n i = some k ∧ i ≤ k ∧ k ≤ i + n
  | 0, i, _ => ⟨i, rfl, by omega, by omega⟩
  | n + 1, i, h => by
    obtain ⟨x, hx⟩ := corr_of_lt (spc := spc) (w := w) (a := i + 1) (by omega)
    obtain ⟨y, hy⟩ := corr_of_lt (spc := spc) (w := w) (a := i) (by omega)
    by_cases hgt : x.gt y = true
    · obtain ⟨k, hk, h1, h2⟩ := refine_of_lt (spc := spc) (w := w) (n := n) (i := i + 1) (by omega)
      exact ⟨k, by simp [refine, hx, hy, hgt, hk], by omega, by omega⟩
    · exact ⟨i, by simp [refine, hx, hy, hgt], by omega, by omega⟩

/-- The offsets of R166 are at most 15 SPC. -/
theorem silenceOffsets_le {spc d : Nat} (h : d ∈ silenceOffsets spc) : d ≤ 15 * spc := by
  simp only [silenceOffsets, List.mem_append, List.mem_range'_1] at h
  omega

/-- The offsets of R160 are at most 9 SPC. -/
theorem pulseOffsets_le {spc d : Nat} (h : d ∈ pulseOffsets spc) : d ≤ 9 * spc := by
  simp only [pulseOffsets, List.mem_cons, List.not_mem_nil, or_false] at h
  omega

/-- Refinement depends on the samples from its start to the last pulse of its last sum. -/
theorem refine_congr {spc : Nat} {w w' : Window} {j last : Nat}
    (h : ∀ k, j ≤ k → k ≤ last → winS w k = winS w' k) :
    ∀ {n i : Nat}, j ≤ i → i + n + 9 * spc ≤ last → refine spc w n i = refine spc w' n i
  | 0, _, _, _ => rfl
  | n + 1, i, h1, h2 => by
    have hcorr : ∀ a, j ≤ a → a + 9 * spc ≤ last → corr spc w a = corr spc w' a := fun a ha hb =>
      corr_congr fun d hd => h _ (by omega) (by have := pulseOffsets_le hd; omega)
    simp only [refine, hcorr i h1 (by omega), hcorr (i + 1) (by omega) (by omega),
      refine_congr (spc := spc) h (n := n) (i := i + 1) (by omega) (by omega)]

/-- The detector test always answers: its guard keeps every read inside the window (R75, R168). -/
theorem detTest_answers {s : State} (h : 0 < s.config.spc) (w : Window) (j : Nat) :
    ∃ r, detTest s w j = some r := by
  by_cases hw : w.length ≤ j + detSpan s.config.spc
  · exact ⟨.outOfWindow, by simp [detTest, hw]⟩
  · have hlen : j + 16 * s.config.spc < w.length := by simpa [detSpan] using hw
    generalize hspc : s.config.spc = spc at h hlen
    obtain ⟨level, hlevel⟩ := winR_of_lt (w := w) (j := j) (by omega)
    obtain ⟨here, hhere⟩ := winS_of_lt (w := w) (j := j) (by omega)
    obtain ⟨next, hnext⟩ := winS_of_lt (w := w) (j := j + 1) (by omega)
    obtain ⟨missing, hmissing⟩ := anySample_of_lt (w := w) (base := j)
      (fun x => !x.gt (level.mul (Fp32.ofBits s.threshRatio))) (ds := [2 * spc, 7 * spc, 9 * spc])
      (by simp; omega)
    obtain ⟨i, hi, hji, hij⟩ := refine_of_lt (spc := spc) (w := w) (n := spc) (i := j) (by omega)
    obtain ⟨c, hc⟩ := corr_of_lt (spc := spc) (w := w) (a := i) (by omega)
    obtain ⟨loud, hloud⟩ := anySample_of_lt (w := w) (base := i)
      (fun x => x.gt ((c.div Fp32.four).div (Fp32.ofBits s.threshRatio))) (ds := silenceOffsets spc)
      (fun d hd => by have := silenceOffsets_le hd; omega)
    obtain ⟨outside, houtside⟩ := anySample_of_lt (w := w) (base := i)
      (fun p => p.lt ((c.div Fp32.four).div (Fp32.ofBits s.spreadRatio)) ||
        p.gt ((c.div Fp32.four).mul (Fp32.ofBits s.spreadRatio))) (ds := pulseOffsets spc)
      (fun d hd => by have := pulseOffsets_le hd; omega)
    have hrefined : ∃ r, testRefined spc (Fp32.ofBits s.threshRatio) (Fp32.ofBits s.spreadRatio) w i = some r := by
      simp only [testRefined, avgPeak, hc, Option.bind_eq_bind, Option.bind_some, Option.pure_def, hloud]
      cases loud
      · simp only [Bool.false_eq_true, if_false, houtside, Option.bind_some]
        cases outside <;> simp
      · simp
    obtain ⟨r, hr⟩ := hrefined
    simp only [detTest, hspc, detSpan, Nat.not_le.mpr hlen, if_false, testCandidate, hlevel, hhere,
      Option.bind_eq_bind, Option.bind_some, hnext, hmissing, hi, hr]
    split
    · exact ⟨_, rfl⟩
    · split
      · exact ⟨_, rfl⟩
      · split
        · exact ⟨_, rfl⟩
        · exact ⟨_, rfl⟩

/-- So does a search for the first accepted candidate. -/
theorem firstAccept_answers {s : State} (h : 0 < s.config.spc) (w : Window) :
    ∀ (count j : Nat), ∃ r, firstAccept s w count j = some r
  | 0, _ => ⟨none, rfl⟩
  | count + 1, j => by
    obtain ⟨r, hr⟩ := detTest_answers h w j
    obtain ⟨r', hr'⟩ := firstAccept_answers h w count (j + 1)
    cases r with
    | accept i ref => exact ⟨some ⟨j, i, ref⟩, by simp [firstAccept, hr]⟩
    | outOfWindow => exact ⟨r', by simp [firstAccept, hr, hr']⟩
    | reject why => exact ⟨r', by simp [firstAccept, hr, hr']⟩

/-- What a search for the first accepted candidate says (R171, R213). -/
theorem firstAccept_spec {s : State} {w : Window} :
    ∀ {count j : Nat} {r : Option Acceptance}, firstAccept s w count j = some r →
      match r with
      | none => ∀ k, j ≤ k → k < j + count → ¬ Accepted s w k
      | some a => j ≤ a.candidate ∧ a.candidate < j + count ∧
          detTest s w a.candidate = some (.accept a.offset a.ref) ∧
          ∀ k, j ≤ k → k < a.candidate → ¬ Accepted s w k
  | 0, j, r, h => by
    simp only [firstAccept, Option.some.injEq] at h
    subst h
    intro k h1 h2
    omega
  | count + 1, j, r, h => by
    simp only [firstAccept, Option.bind_eq_bind, Option.bind_eq_some_iff] at h
    obtain ⟨d, hd, h⟩ := h
    have later : (¬ Accepted s w j) → firstAccept s w count (j + 1) = some r →
        match (generalizing := false) r with
        | none => ∀ k, j ≤ k → k < j + (count + 1) → ¬ Accepted s w k
        | some a => j ≤ a.candidate ∧ a.candidate < j + (count + 1) ∧
            detTest s w a.candidate = some (.accept a.offset a.ref) ∧
            ∀ k, j ≤ k → k < a.candidate → ¬ Accepted s w k := by
      intro hj hrest
      have ih := firstAccept_spec hrest
      cases r with
      | none =>
        intro k h1 h2
        rcases Nat.eq_or_lt_of_le h1 with rfl | h1
        · exact hj
        · exact ih k (by omega) (by omega)
      | some a =>
        obtain ⟨h1, h2, h3, h4⟩ := ih
        refine ⟨by omega, by omega, h3, fun k hk1 hk2 => ?_⟩
        rcases Nat.eq_or_lt_of_le hk1 with rfl | hk1
        · exact hj
        · exact h4 k (by omega) hk2
    cases d with
    | accept i ref =>
      simp only [Option.pure_def, Option.some.injEq] at h
      subst h
      exact ⟨le_rfl, by simp, hd, fun k h1 h2 => absurd h2 (by simp; omega)⟩
    | outOfWindow =>
      exact later (by rintro ⟨i, ref, hacc⟩; simp [hd] at hacc) h
    | reject why =>
      exact later (by rintro ⟨i, ref, hacc⟩; simp [hd] at hacc) h

end Sys2Proof.Machine
end

