-- ==== Sys2Proof/Laws/Ops.lean ====
section
/-! SUPPORT. One lemma per shared operation that says everything it can do: the fault entry, the common entry of the
commands, the slicer, the timestamp, the corrector and the validator. -/

namespace Sys2Proof.Machine

/-! ### Faults and entries -/

/-- In a running core `raise Fault(c)` is `faultedBy` (R283). -/
theorem raiseFault_running {s : State} (h : s.Running) (c : FaultCode) : raiseFault c s = faultedBy c.byte s := by
  have h : s.status.fault = false := h
  simp [raiseFault, h, respond, setFaultFlag, faultedBy]

/-- In a faulted core it gives a response and nothing else (R283). -/
theorem raiseFault_faulted {s : State} (h : s.status.fault = true) (c : FaultCode) :
    raiseFault c s = respond c.byte 0 s := by
  simp [raiseFault, h]

theorem systemCommand_running {s : State} (h : s.Running) (body : Result) : systemCommand s body = body := by
  have h : s.status.fault = false := h
  simp [systemCommand, h]

theorem systemCommand_faulted {s : State} (h : s.status.fault = true) (body : Result) :
    systemCommand s body = .next (refuse s) := by
  simp [systemCommand, h]

theorem plainCommand_running {s : State} (h : s.Running) (body : State → Result) :
    plainCommand s body = body (clearCounts s) := by
  have h : s.status.fault = false := h
  simp [plainCommand, h]

theorem plainCommand_faulted {s : State} (h : s.status.fault = true) (body : State → Result) :
    plainCommand s body = .next (refuse s) := by
  simp [plainCommand, h]

theorem windowCommand_running {s : State} {n : Word} (h : s.Running) (hp : s.Presents n)
    (body : Window → State → Result) :
    windowCommand n s body = body (presentedWindow s) (clearCounts s) := by
  have h : s.status.fault = false := h
  simp [windowCommand, h, hp.length]

theorem windowCommand_faulted {s : State} {n : Word} (h : s.status.fault = true)
    (body : Window → State → Result) : windowCommand n s body = .next (refuse s) := by
  simp [windowCommand, h]

theorem windowCommand_length {s : State} {n : Word} (h : s.Running)
    (hn : n.toNat ≠ (presentedWindow s).length) (body : Window → State → Result) :
    windowCommand n s body = .next (faultedBy FaultCode.windowLength.byte s) := by
  have h' : s.status.fault = false := h
  simp [windowCommand, h', hn, raiseFault_running h]

/-- Everything a command of opcode 0x10 or above without a window can do. -/
theorem plainCommand_next {s t : State} {body : State → Result} (h : plainCommand s body = .next t) :
    (s.status.fault = true ∧ t = refuse s) ∨ (s.Running ∧ body (clearCounts s) = .next t) := by
  by_cases hf : s.status.fault = true
  · rw [plainCommand_faulted hf] at h
    exact .inl ⟨hf, by cases h; rfl⟩
  · have hr : s.Running := by simpa [State.Running] using hf
    exact .inr ⟨hr, by rwa [plainCommand_running hr] at h⟩

/-- Everything CSRWR and ANCHOR can do. -/
theorem systemCommand_next {s t : State} {body : Result} (h : systemCommand s body = .next t) :
    (s.status.fault = true ∧ t = refuse s) ∨ (s.Running ∧ body = .next t) := by
  by_cases hf : s.status.fault = true
  · rw [systemCommand_faulted hf] at h
    exact .inl ⟨hf, by cases h; rfl⟩
  · have hr : s.Running := by simpa [State.Running] using hf
    exact .inr ⟨hr, by rwa [systemCommand_running hr] at h⟩

/-- Everything a command with a window can do. -/
theorem windowCommand_next {s t : State} {n : Word} {body : Window → State → Result}
    (h : windowCommand n s body = .next t) :
    (s.status.fault = true ∧ t = refuse s) ∨
    (s.Running ∧ n.toNat ≠ (presentedWindow s).length ∧ t = faultedBy FaultCode.windowLength.byte s) ∨
    (s.Running ∧ n.toNat = (presentedWindow s).length ∧ body (presentedWindow s) (clearCounts s) = .next t) := by
  by_cases hf : s.status.fault = true
  · rw [windowCommand_faulted hf] at h
    exact .inl ⟨hf, by cases h; rfl⟩
  · have hr : s.Running := by simpa [State.Running] using hf
    by_cases hn : n.toNat = (presentedWindow s).length
    · refine .inr (.inr ⟨hr, hn, ?_⟩)
      simpa [windowCommand, hf, hn] using h
    · rw [windowCommand_length hr hn] at h
      exact .inr (.inl ⟨hr, hn, by cases h; rfl⟩)

/-- Everything a read and its continuation can do. -/
theorem withRead_next {α : Type} {read : Option α} {body : α → State} {t : State}
    (h : withRead read body = .next t) : ∃ a, read = some a ∧ t = body a := by
  cases read with
  | none => cases h
  | some a => exact ⟨a, rfl, by cases h; rfl⟩

/-- Everything the configuration check can do. -/
theorem configured_next {s t : State} {body : Result} (hr : s.Running) (h : configured s body = .next t) :
    (s.status.cfgValid = false ∧ t = faultedBy FaultCode.notConfigured.byte s) ∨
    (s.status.cfgValid = true ∧ body = .next t) := by
  by_cases hc : s.status.cfgValid = true
  · exact .inr ⟨hc, by simpa [configured, hc] using h⟩
  · have hc : s.status.cfgValid = false := by simpa using hc
    refine .inl ⟨hc, ?_⟩
    simp only [configured, hc, Bool.false_eq_true, if_false, raiseFault_running hr] at h
    cases h
    rfl

/-! ### The detector -/

/-- The scan answers on every window. -/
theorem scan_answers {s : State} (h : 0 < s.config.spc) (w : Window) : ∃ r, scan s w = some r := by
  obtain ⟨a, ha⟩ := firstAccept_answers h w (w.length - lookahead s.config.spc + 1) 0
  by_cases hw : w.length < lookahead s.config.spc
  · exact ⟨.insufficient, by simp [scan, hw]⟩
  · cases a with
    | none => exact ⟨_, by simp [scan, hw, ha]; rfl⟩
    | some a => exact ⟨_, by simp [scan, hw, ha]; rfl⟩

/-- So does the fruit scan. -/
theorem fruit_answers {s : State} (h : 0 < s.config.spc) (w : Window) (i : Nat) (kind : FrameKind) :
    ∃ r, fruit s w i kind = some r := by
  obtain ⟨a, ha⟩ := firstAccept_answers h w (kindSpan s.config.spc kind - 2 * detSpan s.config.spc)
    (i + detSpan s.config.spc)
  exact ⟨a.map fun a => a.candidate, by simp [fruit, ha]⟩

/-- The timestamp writes the TS registers and TS_VALID. -/
theorem timestamp_frame (i : Nat) (s : State) :
    timestamp i s = { s with
      tsSecs := (timestamp i s).tsSecs, tsFrac := (timestamp i s).tsFrac,
      status := { s.status with tsValid := s.status.anchorValid } } := by
  unfold timestamp
  split
  · simp [setTsValid, *]
  · rename_i h
    simp [setTsValid, h]

/-! ### The slicer -/

/-- Storing one sliced bit writes the frame bits, the positions and the count. -/
theorem storeBit_frame (k : Fin 112) (b : SlicedBit) (s : State) :
    storeBit k b s = { s with
      fb := (storeBit k b s).fb, lcbPos := (storeBit k b s).lcbPos, lcbTotal := (storeBit k b s).lcbTotal } := by
  unfold storeBit
  split <;> simp [noteLowConfidence]

/-- Slicing bits writes the same registers. -/
theorem sliceBits_frame {w : Window} {i : Nat} {ref : Fp32} :
    ∀ {ks : List (Fin 112)} {s t : State}, sliceBits w i ref ks s = some t →
      t = { s with fb := t.fb, lcbPos := t.lcbPos, lcbTotal := t.lcbTotal }
  | [], s, t, h => by
    simp only [sliceBits, Option.some.injEq] at h
    subst h
    rfl
  | k :: ks, s, t, h => by
    simp only [sliceBits, sliceOne, Option.bind_eq_bind, Option.bind_eq_some_iff, Option.pure_def,
      Option.some.injEq] at h
    obtain ⟨u, ⟨e0, -, e1, -, rfl⟩, h⟩ := h
    rw [sliceBits_frame h, storeBit_frame]

/-- Slicing a frame writes the frame registers and KIND (R194). -/
theorem sliceFrame_frame {w : Window} {i : Nat} {ref : Word} {s t : State} (h : sliceFrame w i ref s = some t) :
    t = { s with fb := t.fb, lcbPos := t.lcbPos, lcbTotal := t.lcbTotal, kind := t.kind } := by
  simp only [sliceFrame, Option.bind_eq_bind, Option.bind_eq_some_iff] at h
  obtain ⟨u, hu, ht⟩ := h
  rw [sliceBits_frame ht, sliceBits_frame hu]
  rfl

/-- The chips of these bits are in the window, so slicing them answers. -/
theorem sliceBits_answers {w : Window} {i : Nat} {ref : Fp32} :
    ∀ {ks : List (Fin 112)} {s : State}, 0 < s.config.spc → i + 240 * s.config.spc ≤ w.length →
      ∃ t, sliceBits w i ref ks s = some t ∧ t.config = s.config
  | [], s, _, _ => ⟨s, rfl, rfl⟩
  | k :: ks, s, h, hw => by
    have chip : ∀ c ≤ 1, i + chipOffset s.config.spc k.val c < w.length := by
      intro c hc
      have : (16 + 2 * k.val + c) * s.config.spc ≤ 239 * s.config.spc := Nat.mul_le_mul_right _ (by omega)
      simp only [chipOffset]
      omega
    obtain ⟨e0, h0⟩ := winS_of_lt (chip 0 (by decide))
    obtain ⟨e1, h1⟩ := winS_of_lt (chip 1 (by decide))
    have hc : (storeBit k (sliceBit s e0 e1 ref) s).config = s.config := by rw [storeBit_frame]
    obtain ⟨t, ht, htc⟩ := sliceBits_answers (w := w) (i := i) (ref := ref) (ks := ks)
      (s := storeBit k (sliceBit s e0 e1 ref) s) (by rwa [hc]) (by rwa [hc])
    exact ⟨t, by simp [sliceBits, sliceOne, h0, h1, ht], htc.trans hc⟩

/-- Slicing answers when the worst-case frame is inside the window (R194). -/
theorem sliceFrame_answers {w : Window} {i : Nat} {ref : Word} {s : State} (h : 0 < s.config.spc)
    (hw : i + 240 * s.config.spc ≤ w.length) : ∃ t, sliceFrame w i ref s = some t := by
  obtain ⟨u, hu, huc⟩ := sliceBits_answers (w := w) (i := i) (ref := Fp32.ofBits ref)
    (ks := (frameIndices .short).take 5) (s := clearFrame s) h hw
  have huc : u.config = s.config := huc
  obtain ⟨t, ht, -⟩ := sliceBits_answers (w := w) (i := i) (ref := Fp32.ofBits ref)
    (ks := (frameIndices (classify u).kind).drop 5) (s := classify u)
    (by simpa [classify, huc] using h) (by simpa [classify, huc] using hw)
  exact ⟨t, by simpa [sliceFrame, hu] using ht⟩

/-! ### The corrector and the validator -/

/-- The corrector writes SYNDROME, and the frame bits when it found a single solution (R243 (g)). -/
theorem correctFrame_frame (s : State) :
    (correctFrame s).2 = { s with fb := (correctFrame s).2.fb, syndrome := (correctFrame s).2.syndrome } ∧
    ((correctFrame s).1 ≠ .single → (correctFrame s).2 = { s with syndrome := frameCrc .long s }) := by
  unfold correctFrame
  simp only
  split
  · simp
  · split
    · simp
    · split <;> simp

/-- The validator writes SYNDROME, and the frame bits on a corrected accept (R220 (e)). -/
theorem validateFrame_frame (s : State) :
    (validateFrame s).2 = { s with fb := (validateFrame s).2.fb, syndrome := (validateFrame s).2.syndrome } := by
  unfold validateFrame
  simp only
  split
  · rfl
  split
  · rfl
  split
  · rfl
  split
  · rfl
  split
  · rfl
  split
  · rfl
  exact (correctFrame_frame s).1

/-- The codes the validator answers with (R221). -/
def validatorCodes : List Code :=
  [.accepted, .correctedAndAccepted, .allZeroFrame, .lowConfidenceOverLimit, .untrustedShortFrame, .parityFailed,
   .tooManyLowConfidenceBits, .unsolvable, .ambiguousCorrection]

theorem correctionVerdict_mem (c : Correction) : correctionVerdict c ∈ validatorCodes := by
  cases c <;> decide

/-- The validator answers with one of its codes. -/
theorem validateFrame_code (s : State) : (validateFrame s).1 ∈ validatorCodes := by
  unfold validateFrame
  simp only
  split
  · simp [validatorCodes]
  split
  · simp [validatorCodes]
  split
  · simp [validatorCodes]
  split
  · simp [validatorCodes]
  split
  · simp [validatorCodes]
  split
  · simp [validatorCodes]
  · exact correctionVerdict_mem _

end Sys2Proof.Machine
end

