-- ==== Sys2Proof/Laws/Depends.lean ====
section
/-! SUPPORT. What each shared function depends on: two states that agree on the registers a function reads give the same
result, and the registers it writes are the same in both. -/

namespace Sys2Proof.Machine

/-- The detector test reads SPC, THRESH_RATIO and SPREAD_RATIO. -/
theorem detTest_congr {s u : State} (hc : u.config = s.config) (ht : u.threshRatio = s.threshRatio)
    (hs : u.spreadRatio = s.spreadRatio) (w : Window) (j : Nat) : detTest u w j = detTest s w j := by
  simp only [detTest, hc, ht, hs]

theorem firstAccept_congr {s u : State} (hc : u.config = s.config) (ht : u.threshRatio = s.threshRatio)
    (hs : u.spreadRatio = s.spreadRatio) (w : Window) :
    ∀ count j : Nat, firstAccept u w count j = firstAccept s w count j
  | 0, _ => rfl
  | count + 1, j => by
    simp only [firstAccept, detTest_congr hc ht hs, firstAccept_congr hc ht hs w count]

/-- So do the scan and the fruit scan. -/
theorem scan_congr {s u : State} (hc : u.config = s.config) (ht : u.threshRatio = s.threshRatio)
    (hs : u.spreadRatio = s.spreadRatio) (w : Window) : scan u w = scan s w := by
  simp only [scan, hc, firstAccept_congr hc ht hs]

theorem fruit_congr {s u : State} (hc : u.config = s.config) (ht : u.threshRatio = s.threshRatio)
    (hs : u.spreadRatio = s.spreadRatio) (w : Window) (i : Nat) (kind : FrameKind) :
    fruit u w i kind = fruit s w i kind := by
  simp only [fruit, hc, firstAccept_congr hc ht hs]

/-- The slicer's registers agree. -/
structure SameSlicer (u s : State) : Prop where
  config : u.config = s.config
  longMask : u.longMask = s.longMask
  low : u.sliceLow = s.sliceLow
  high : u.sliceHigh = s.sliceHigh
  strong : u.sliceStrong = s.sliceStrong

/-- `u` with the frame bits and the low-confidence list of `t`. -/
def graft (t u : State) : State := { u with fb := t.fb, lcbPos := t.lcbPos, lcbTotal := t.lcbTotal }

/-- `u` with all frame registers of `t` that the slicer writes. -/
def withFrameOf (t u : State) : State := { graft t u with kind := t.kind }

theorem storeBit_graft (k : Fin 112) (b : SlicedBit) (s u : State) :
    storeBit k b (graft s u) = graft (storeBit k b s) u := by
  unfold storeBit
  split <;> rfl

theorem sliceOne_graft {w : Window} {i : Nat} {ref : Fp32} {s u : State} (h : SameSlicer u s) (k : Fin 112) :
    sliceOne w i ref (graft s u) k = (sliceOne w i ref s k).map (graft · u) := by
  have hbit : ∀ e0 e1, sliceBit (graft s u) e0 e1 ref = sliceBit s e0 e1 ref := by
    intro e0 e1
    simp only [sliceBit, graft, h.low, h.high, h.strong]
  have hconfig : (graft s u).config = s.config := h.config
  simp only [sliceOne, hconfig, hbit, storeBit_graft]
  cases winS w (i + chipOffset s.config.spc k.val 0) <;> cases winS w (i + chipOffset s.config.spc k.val 1) <;> rfl

theorem sliceBits_graft {w : Window} {i : Nat} {ref : Fp32} {u : State} :
    ∀ {ks : List (Fin 112)} {s : State}, SameSlicer u s →
      sliceBits w i ref ks (graft s u) = (sliceBits w i ref ks s).map (graft · u)
  | [], _, _ => rfl
  | k :: ks, s, h => by
    simp only [sliceBits, sliceOne_graft h]
    cases hs : sliceOne w i ref s k with
    | none => rfl
    | some t =>
      have hf : t = { s with fb := t.fb, lcbPos := t.lcbPos, lcbTotal := t.lcbTotal } :=
        sliceBits_frame (w := w) (i := i) (ref := ref) (ks := [k]) (by simp [sliceBits, hs])
      exact sliceBits_graft (by rw [hf]; exact ⟨h.config, h.longMask, h.low, h.high, h.strong⟩)

/-- The slicer reads SPC, LONG_MASK and the three factors, and its result is the same frame in every such state. -/
theorem sliceFrame_congr {w : Window} {i : Nat} {ref : Word} {s u : State} (h : SameSlicer u s) :
    sliceFrame w i ref u = (sliceFrame w i ref s).map (withFrameOf · u) := by
  have hstart : clearFrame u = graft (clearFrame s) u := rfl
  have hclear : SameSlicer u (clearFrame s) := ⟨h.config, h.longMask, h.low, h.high, h.strong⟩
  simp only [sliceFrame, hstart, sliceBits_graft hclear]
  cases hs : sliceBits w i (Fp32.ofBits ref) ((frameIndices .short).take 5) (clearFrame s) with
  | none => rfl
  | some t =>
    have hmask : u.longMask = t.longMask := by
      rw [sliceBits_frame hs]
      exact h.longMask
    have hkind : classify (graft t u) = graft (classify t) { u with kind := (classify t).kind } := by
      simp only [classify, graft, hmask]
    have ht : SameSlicer { u with kind := (classify t).kind } (classify t) := by
      rw [sliceBits_frame hs]
      exact ⟨h.config, h.longMask, h.low, h.high, h.strong⟩
    simp only [Option.map_some, Option.bind_eq_bind, Option.bind_some, hkind, sliceBits_graft ht]
    show (sliceBits w i (Fp32.ofBits ref) ((frameIndices (classify t).kind).drop 5) (classify t)).map _ = _
    cases hr : sliceBits w i (Fp32.ofBits ref) ((frameIndices (classify t).kind).drop 5) (classify t) with
    | none => rfl
    | some r =>
      have hrk : r.kind = (classify t).kind := by rw [sliceBits_frame hr]
      simp only [Option.map_some, withFrameOf, graft, hrk]

/-- The timestamp reads the anchor, ABS_COUNT and SAMPLE_RATE, and writes the TS registers and TS_VALID. -/
theorem timestamp_counted (i : Nat) (consumed produced : Word) (s : State) :
    timestamp i (counted consumed produced s) = counted consumed produced (timestamp i s) := by
  by_cases h : s.status.anchorValid = true <;> simp [timestamp, counted, setTsValid, h]

/-- The registers the corrector reads agree. -/
structure SameCorrector (u s : State) : Prop where
  config : u.config = s.config
  fb : u.fb = s.fb
  lcbPos : u.lcbPos = s.lcbPos
  lcbTotal : u.lcbTotal = s.lcbTotal
  lcbLimit : u.lcbLimit = s.lcbLimit

/-- The corrector reads PARITY_TABLE, the frame bits, the low-confidence list and LCB_LIMIT. -/
theorem correctFrame_congr {s u : State} (h : SameCorrector u s) :
    correctFrame u = ((correctFrame s).1,
      { u with fb := (correctFrame s).2.fb, syndrome := (correctFrame s).2.syndrome }) := by
  simp only [correctFrame, frameCrc, recordedPositions, h.config, h.fb, h.lcbPos, h.lcbTotal, h.lcbLimit]
  by_cases h1 : crc s.config.parityTable .long s.fb = 0
  · simp only [h1, if_true]
  by_cases h2 : s.lcbLimit.val < s.lcbTotal.val
  · simp only [h1, h2, if_true, if_false]
  simp only [h1, h2, if_false]
  cases search s.config.parityTable (crc s.config.parityTable .long s.fb) (s.lcbPos.toList.take s.lcbTotal.val) none
      (candidates s.lcbTotal.val) <;>
    simp only [← h.fb, ← h.config, ← h.lcbPos, ← h.lcbTotal, ← h.lcbLimit]

/-- The validator reads KIND and NOCORR_MASK besides; it leaves SYNDROME alone when it ends before step 4. -/
theorem validateFrame_congr {s u : State} (h : SameCorrector u s) (hk : u.kind = s.kind)
    (hm : u.nocorrMask = s.nocorrMask) (hs : u.syndrome = s.syndrome) :
    validateFrame u = ((validateFrame s).1,
      { u with fb := (validateFrame s).2.fb, syndrome := (validateFrame s).2.syndrome }) := by
  have hc : correctFrame { u with syndrome := frameCrc s.kind s } =
      ((correctFrame { s with syndrome := frameCrc s.kind s }).1,
        { u with fb := (correctFrame { s with syndrome := frameCrc s.kind s }).2.fb,
                 syndrome := (correctFrame { s with syndrome := frameCrc s.kind s }).2.syndrome }) :=
    correctFrame_congr ⟨h.config, h.fb, h.lcbPos, h.lcbTotal, h.lcbLimit⟩
  have hcrc : frameCrc s.kind u = frameCrc s.kind s := by simp only [frameCrc, h.config, h.fb]
  simp only [validateFrame, hk, hm, h.fb, h.lcbTotal, hcrc]
  by_cases h1 : allZero s.kind s.fb = true
  · simp only [if_pos h1]
    simp only [← hs, ← h.fb, ← hk, ← hm, ← h.lcbTotal]
  by_cases h2 : s.kind = .short ∧ msgType s.fb ≠ 11 ∧ 0 < s.lcbTotal.val
  · simp only [if_neg h1, if_pos h2]
    simp only [← hs, ← h.fb, ← hk, ← hm, ← h.lcbTotal]
  by_cases h3 : msgType s.fb = 11 ∧ t11LcbReject ≤ s.lcbTotal.val
  · simp only [if_neg h1, if_neg h2, if_pos h3]
    simp only [← hs, ← h.fb, ← hk, ← hm, ← h.lcbTotal]
  by_cases h4 : frameCrc s.kind s = 0
  · simp only [if_neg h1, if_neg h2, if_neg h3, if_pos h4]
  by_cases h5 : s.kind = .short
  · simp only [if_neg h1, if_neg h2, if_neg h3, if_neg h4, if_pos h5]
  by_cases h6 : s.nocorrMask.getLsbD (msgType s.fb).toNat = true
  · simp only [if_neg h1, if_neg h2, if_neg h3, if_neg h4, if_neg h5, if_pos h6]
  simp only [if_neg h1, if_neg h2, if_neg h3, if_neg h4, if_neg h5, if_neg h6]
  simp only [hk, hm, h.fb, h.lcbTotal] at hc
  simp only [hc]

end Sys2Proof.Machine
end

