-- ==== Sys2Proof/Laws/Commands.lean ====
section
/-! SUPPORT. Everything each command can do: from `exec i s = .next t`, the cases its rule gives it. Statements about
every command go through these, one case split each. -/

namespace Sys2Proof.Machine

/-- What a command of the common entry can end as without doing its rule: refused, or faulted with one of these codes. -/
def Stopped (s t : State) (codes : List FaultCode) : Prop :=
  (s.status.fault = true ∧ t = refuse s) ∨ (s.Running ∧ ∃ c ∈ codes, t = faultedBy c.byte s)

theorem execReset_next {s t : State} (h : execReset s = .next t) :
    t = respondOk { State.resetFor s.config with calls := s.calls } := by
  cases h
  rfl

theorem execCsrrd_next {csr : Byte} {s t : State} (h : execCsrrd csr s = .next t) :
    (readCsr csr s = none ∧ t = raiseFault .badOperand s) ∨
    ∃ v, readCsr csr s = some v ∧ t = respond Code.ok.byte v s := by
  unfold execCsrrd at h
  split at h <;> cases h
  · exact .inl ⟨‹_›, rfl⟩
  · exact .inr ⟨_, ‹_›, rfl⟩

theorem execCsrwr_next {csr : Byte} {data : Word} {s t : State} (h : execCsrwr csr data s = .next t) :
    (Stopped s t [.badOperand] ∧ (s.Running → legalWrite csr data = false)) ∨
    (s.Running ∧ ∃ r, Csr.ofNumber csr = some r ∧ r.legal data = true ∧
      t = respondOk (if r = .threshRatio then setCfgValid (r.store data s) else r.store data s)) := by
  rcases systemCommand_next h with ⟨hf, rfl⟩ | ⟨hr, h⟩
  · exact .inl ⟨.inl ⟨hf, rfl⟩, fun hr => absurd hf (by simp [show s.status.fault = false from hr])⟩
  · cases hn : Csr.ofNumber csr with
    | none =>
      simp only [writeCsr, hn] at h
      cases h
      exact .inl ⟨.inr ⟨hr, .badOperand, by simp, raiseFault_running hr _⟩, fun _ => by simp [legalWrite, hn]⟩
    | some r =>
      by_cases hl : r.legal data = true
      · simp only [writeCsr, hn, hl, if_true] at h
        cases h
        exact .inr ⟨hr, r, rfl, hl, rfl⟩
      · simp only [writeCsr, hn, hl] at h
        cases h
        exact .inl ⟨.inr ⟨hr, .badOperand, by simp, raiseFault_running hr _⟩,
          fun _ => by simpa [legalWrite, hn] using hl⟩

/-- A store writes no register but those CSRWR can address (R21). -/
theorem store_frame (r : Csr) (data : Word) (s : State) :
    r.store data s = { s with
      threshRatio := (r.store data s).threshRatio, longMask := (r.store data s).longMask,
      nocorrMask := (r.store data s).nocorrMask, sliceLow := (r.store data s).sliceLow,
      sliceHigh := (r.store data s).sliceHigh, sliceStrong := (r.store data s).sliceStrong,
      spreadRatio := (r.store data s).spreadRatio, lcbLimit := (r.store data s).lcbLimit,
      kind := (r.store data s).kind, refLevel := (r.store data s).refLevel,
      burstOffset := (r.store data s).burstOffset, lcbTotal := (r.store data s).lcbTotal,
      fb := (r.store data s).fb, lcbPos := (r.store data s).lcbPos } := by
  cases r <;> rfl

theorem execAnchor_next {secs idx : DWord} {frac : Word} {s t : State} (h : execAnchor secs frac idx s = .next t) :
    (Stopped s t [.badOperand] ∧ (s.Running → legalFraction frac = false)) ∨
    (s.Running ∧ legalFraction frac = true ∧
      t = respondOk (setAnchorValid { s with anchorSecs := secs, anchorFrac := frac, anchorIdx := idx })) := by
  rcases systemCommand_next h with ⟨hf, rfl⟩ | ⟨hr, h⟩
  · exact .inl ⟨.inl ⟨hf, rfl⟩, fun hr => absurd hf (by simp [show s.status.fault = false from hr])⟩
  · by_cases hl : legalFraction frac = true
    · simp only [hl, if_true] at h
      cases h
      exact .inr ⟨hr, hl, rfl⟩
    · simp only [hl] at h
      cases h
      exact .inl ⟨.inr ⟨hr, .badOperand, by simp, raiseFault_running hr _⟩, fun _ => by simpa using hl⟩

theorem execCrcCheck_next {length : Byte} {s t : State} (h : execCrcCheck length s = .next t) :
    Stopped s t [.badOperand] ∨
    (s.Running ∧ ∃ kind, lengthOperand length = some kind ∧
      t = done .ok { clearCounts s with syndrome := frameCrc kind s }) := by
  rcases plainCommand_next h with ⟨hf, rfl⟩ | ⟨hr, h⟩
  · exact .inl (.inl ⟨hf, rfl⟩)
  · split at h <;> cases h
    · exact .inl (.inr ⟨hr, .badOperand, by simp, raiseFault_running hr _⟩)
    · exact .inr ⟨hr, _, ‹_›, rfl⟩

theorem execDetTest_next {j n : Word} {s t : State} (h : execDetTest j n s = .next t) :
    Stopped s t [.windowLength, .notConfigured] ∨
    (s.Running ∧ n.toNat = (presentedWindow s).length ∧ s.status.cfgValid = true ∧
      ∃ r, detTest s (presentedWindow s) j.toNat = some r ∧ t = (match r with
        | .outOfWindow => done .insufficientLookahead (clearCounts s)
        | .reject why => done .candidateRejected { clearCounts s with res0 := why.word }
        | .accept i ref => done .burstFound { setBurst i ref (clearCounts s) with res0 := 0 })) := by
  rcases windowCommand_next h with ⟨hf, rfl⟩ | ⟨hr, hn, rfl⟩ | ⟨hr, hn, h⟩
  · exact .inl (.inl ⟨hf, rfl⟩)
  · exact .inl (.inr ⟨hr, .windowLength, by simp, rfl⟩)
  · rcases configured_next hr h with ⟨-, rfl⟩ | ⟨hc, h⟩
    · exact .inl (.inr ⟨hr, .notConfigured, by simp, rfl⟩)
    · obtain ⟨r, hd, rfl⟩ := withRead_next h
      exact .inr ⟨hr, hn, hc, r, hd, rfl⟩

theorem execRunDetect_next {n : Word} {s t : State} (h : execRunDetect n s = .next t) :
    Stopped s t [.windowLength, .notConfigured] ∨
    (s.Running ∧ n.toNat = (presentedWindow s).length ∧ s.status.cfgValid = true ∧
      ∃ r, scan s (presentedWindow s) = some r ∧ t = (match r with
        | .insufficient => done .insufficientLookahead (setCounts 0 0 (clearCounts s))
        | .noBurst c => done .noBurst (advanceCount c (setCounts c 0 (clearCounts s)))
        | .burst i ref c =>
          done .burstFound (advanceCount c (setCounts c 1 (setBurst i ref (timestamp i (clearCounts s))))))) := by
  rcases windowCommand_next h with ⟨hf, rfl⟩ | ⟨hr, hn, rfl⟩ | ⟨hr, hn, h⟩
  · exact .inl (.inl ⟨hf, rfl⟩)
  · exact .inl (.inr ⟨hr, .windowLength, by simp, rfl⟩)
  · rcases configured_next hr h with ⟨-, rfl⟩ | ⟨hc, h⟩
    · exact .inl (.inr ⟨hr, .notConfigured, by simp, rfl⟩)
    · obtain ⟨r, hd, rfl⟩ := withRead_next h
      rw [scan_congr (s := s) (u := clearCounts s) rfl rfl rfl] at hd
      exact .inr ⟨hr, hn, hc, r, hd, rfl⟩

theorem execSliceBit_next {e0 e1 ref : Word} {s t : State} (h : execSliceBit e0 e1 ref s = .next t) :
    Stopped s t [] ∨
    (s.Running ∧ t = done .ok { clearCounts s with
      res0 := slicedWord (sliceBit s (Fp32.ofBits e0) (Fp32.ofBits e1) (Fp32.ofBits ref)) }) := by
  rcases plainCommand_next h with ⟨hf, rfl⟩ | ⟨hr, h⟩
  · exact .inl (.inl ⟨hf, rfl⟩)
  · cases h
    exact .inr ⟨hr, rfl⟩

theorem execSliceFrame_next {n : Word} {s t : State} (h : execSliceFrame n s = .next t) :
    Stopped s t [.windowLength] ∨
    (s.Running ∧ n.toNat = (presentedWindow s).length ∧ t = done .insufficientLookahead (clearCounts s)) ∨
    (s.Running ∧ n.toNat = (presentedWindow s).length ∧
      ∃ u, sliceFrame (presentedWindow s) s.burstOffset.toNat s.refLevel s = some u ∧
        t = done .ok (withFrameOf u (clearCounts s))) := by
  rcases windowCommand_next h with ⟨hf, rfl⟩ | ⟨hr, hn, rfl⟩ | ⟨hr, hn, h⟩
  · exact .inl (.inl ⟨hf, rfl⟩)
  · exact .inl (.inr ⟨hr, .windowLength, by simp, rfl⟩)
  · split at h
    · cases h
      exact .inr (.inl ⟨hr, hn, rfl⟩)
    · obtain ⟨u, hu, rfl⟩ := withRead_next h
      rw [sliceFrame_congr (s := s) (u := clearCounts s) ⟨rfl, rfl, rfl, rfl, rfl⟩, Option.map_eq_some_iff] at hu
      obtain ⟨v, hv, rfl⟩ := hu
      exact .inr (.inr ⟨hr, hn, v, hv, rfl⟩)

theorem execClsKind_next {hdr : BitVec 5} {s t : State} (h : execClsKind hdr s = .next t) :
    Stopped s t [] ∨
    (s.Running ∧ t = done .ok { clearCounts s with res0 := kindWord (kindOf s.longMask hdr) }) := by
  rcases plainCommand_next h with ⟨hf, rfl⟩ | ⟨hr, h⟩
  · exact .inl (.inl ⟨hf, rfl⟩)
  · cases h
    exact .inr ⟨hr, rfl⟩

theorem execClsFruit_next {n : Word} {s t : State} (h : execClsFruit n s = .next t) :
    Stopped s t [.windowLength, .notConfigured] ∨
    (s.Running ∧ n.toNat = (presentedWindow s).length ∧ s.status.cfgValid = true ∧
      t = done .insufficientLookahead (clearCounts s)) ∨
    (s.Running ∧ n.toNat = (presentedWindow s).length ∧ s.status.cfgValid = true ∧
      ∃ hit, fruit s (presentedWindow s) s.burstOffset.toNat s.kind = some hit ∧ t = (match hit with
        | some j => done .fruitedFrame { setFruited true (clearCounts s) with res0 := BitVec.ofNat 32 j }
        | none => done .notFruited { setFruited false (clearCounts s) with res0 := 0 })) := by
  rcases windowCommand_next h with ⟨hf, rfl⟩ | ⟨hr, hn, rfl⟩ | ⟨hr, hn, h⟩
  · exact .inl (.inl ⟨hf, rfl⟩)
  · exact .inl (.inr ⟨hr, .windowLength, by simp, rfl⟩)
  · rcases configured_next hr h with ⟨-, rfl⟩ | ⟨hc, h⟩
    · exact .inl (.inr ⟨hr, .notConfigured, by simp, rfl⟩)
    · split at h
      · cases h
        exact .inr (.inl ⟨hr, hn, hc, rfl⟩)
      · obtain ⟨hit, hd, rfl⟩ := withRead_next h
        rw [fruit_congr (s := s) (u := clearCounts s) rfl rfl rfl] at hd
        exact .inr (.inr ⟨hr, hn, hc, hit, hd, rfl⟩)

theorem execValidate_next {s t : State} (h : execValidate s = .next t) :
    Stopped s t [] ∨
    (s.Running ∧ t = done (validateFrame s).1 { clearCounts s with
      fb := (validateFrame s).2.fb, syndrome := (validateFrame s).2.syndrome }) := by
  rcases plainCommand_next h with ⟨hf, rfl⟩ | ⟨hr, h⟩
  · exact .inl (.inl ⟨hf, rfl⟩)
  · rw [validateFrame_congr (s := s) (u := clearCounts s) ⟨rfl, rfl, rfl, rfl, rfl⟩ rfl rfl rfl] at h
    cases h
    exact .inr ⟨hr, rfl⟩

theorem execNextcomb_next {x : Word} {s t : State} (h : execNextcomb x s = .next t) :
    Stopped s t [.badOperand] ∨
    (s.Running ∧ x.toNat < 2 ^ 24 ∧
      t = done .ok { clearCounts s with res0 := BitVec.ofNat 32 (nextComb x.toNat) }) := by
  rcases plainCommand_next h with ⟨hf, rfl⟩ | ⟨hr, h⟩
  · exact .inl (.inl ⟨hf, rfl⟩)
  · split at h <;> cases h
    · exact .inr ⟨hr, by simpa [legalMask] using ‹legalMask x = true›, rfl⟩
    · exact .inl (.inr ⟨hr, .badOperand, by simp, raiseFault_running hr _⟩)

theorem execCorrect_next {s t : State} (h : execCorrect s = .next t) :
    Stopped s t [.badOperand] ∨
    (s.Running ∧ s.kind = .long ∧ t = done (correctFrame s).1.code { clearCounts s with
      fb := (correctFrame s).2.fb, syndrome := (correctFrame s).2.syndrome }) := by
  rcases plainCommand_next h with ⟨hf, rfl⟩ | ⟨hr, h⟩
  · exact .inl (.inl ⟨hf, rfl⟩)
  · split at h
    · cases h
      exact .inl (.inr ⟨hr, .badOperand, by simp, raiseFault_running hr _⟩)
    · rename_i hk
      rw [correctFrame_congr (s := s) (u := clearCounts s) ⟨rfl, rfl, rfl, rfl, rfl⟩] at h
      cases h
      exact .inr ⟨hr, hk, rfl⟩

theorem execRunDecode_next {n : Word} {s t : State} (h : execRunDecode n s = .next t) :
    Stopped s t [.windowLength, .notConfigured] ∨
    (s.Running ∧ n.toNat = (presentedWindow s).length ∧ s.status.cfgValid = true ∧
      ((scan s (presentedWindow s) = some .insufficient ∧
          t = done .insufficientLookahead (setCounts 0 0 (clearCounts s))) ∨
       (∃ c, scan s (presentedWindow s) = some (.noBurst c) ∧
          t = done .noBurst (advanceCount c (setCounts c 0 (clearCounts s)))) ∨
       (∃ i ref c v, scan s (presentedWindow s) = some (.burst i ref c) ∧
          decodeBurst (presentedWindow s) i ref (clearCounts s) = some v ∧ t = finishDecode c v))) := by
  rcases windowCommand_next h with ⟨hf, rfl⟩ | ⟨hr, hn, rfl⟩ | ⟨hr, hn, h⟩
  · exact .inl (.inl ⟨hf, rfl⟩)
  · exact .inl (.inr ⟨hr, .windowLength, by simp, rfl⟩)
  · rcases configured_next hr h with ⟨-, rfl⟩ | ⟨hc, h⟩
    · exact .inl (.inr ⟨hr, .notConfigured, by simp, rfl⟩)
    · rw [scan_congr (s := s) (u := clearCounts s) rfl rfl rfl] at h
      refine .inr ⟨hr, hn, hc, ?_⟩
      split at h
      · cases h
      · cases h
        exact .inl ⟨‹_›, rfl⟩
      · cases h
        exact .inr (.inl ⟨_, ‹_›, rfl⟩)
      · obtain ⟨v, hv, rfl⟩ := withRead_next h
        exact .inr (.inr ⟨_, _, _, v, ‹_›, hv, rfl⟩)

/-- What decoding a burst answers and writes (R260). -/
theorem decodeBurst_spec {w : Window} {i : Nat} {ref : Word} {s : State} {v : Code × State}
    (h : decodeBurst w i ref s = some v) :
    ∃ t hit, sliceFrame w i ref (setBurst i ref (timestamp i s)) = some t ∧ fruit t w i t.kind = some hit ∧
      v = judgeFrame hit t ∧
      v.2 = { s with
        burstOffset := BitVec.ofNat 32 i, refLevel := ref, tsSecs := (timestamp i s).tsSecs,
        tsFrac := (timestamp i s).tsFrac, fb := v.2.fb, lcbPos := v.2.lcbPos, lcbTotal := v.2.lcbTotal,
        kind := v.2.kind, syndrome := v.2.syndrome,
        status := { s.status with tsValid := s.status.anchorValid, fruited := hit.isSome } } := by
  simp only [decodeBurst, Option.bind_eq_bind, Option.bind_eq_some_iff, Option.pure_def, Option.some.injEq] at h
  obtain ⟨t, ht, hit, hhit, rfl⟩ := h
  refine ⟨t, hit, ht, hhit, rfl, ?_⟩
  cases hit with
  | some j =>
    simp only [judgeFrame, setFruited]
    rw [sliceFrame_frame ht, timestamp_frame]
    rfl
  | none =>
    simp only [judgeFrame]
    rw [validateFrame_frame, sliceFrame_frame ht, timestamp_frame]
    rfl

end Sys2Proof.Machine
end

