-- ==== Sys2Proof/Laws/Frame.lean ====
section
/-! SUPPORT. The frame bits (20_memory.md R73, R76): a read after a write, and what a flip changes. -/

namespace Sys2Proof.Machine

/-- A written frame bit reads as written; every other bit reads as before. -/
theorem frameBit_setFrameBit (fb : Vector Byte 14) (k k' : Fin 112) (b : Bool) :
    frameBit (setFrameBit fb k b) k' = if k = k' then b else frameBit fb k' := by
  obtain ⟨k, hk⟩ := k
  obtain ⟨k', hk'⟩ := k'
  simp only [frameBit, setFrameBit, Vector.getElem_set, Fin.mk.injEq]
  by_cases hb : k / 8 = k' / 8
  · have hbit : (7 - k % 8 = 7 - k' % 8) ↔ k = k' := by omega
    have hlt : 7 - k' % 8 < 8 := by omega
    cases b <;>
      simp only [hb, if_true, Bool.false_eq_true, if_false, BitVec.getLsbD_or, BitVec.getLsbD_and, BitVec.getLsbD_not,
        BitVec.getLsbD_twoPow, hlt, decide_true, Bool.true_and, hbit] <;>
      by_cases h : k = k' <;> simp [h, hlt]
  · have h : ¬ k = k' := fun h => hb (by rw [h])
    simp [hb, h]

/-- A flipped frame bit reads inverted; every other bit reads as before. -/
theorem frameBit_flipFrameBit (fb : Vector Byte 14) (k k' : Fin 112) :
    frameBit (flipFrameBit fb k) k' = (frameBit fb k' ^^ decide (k = k')) := by
  rw [flipFrameBit, frameBit_setFrameBit]
  by_cases h : k = k' <;> simp [h]

/-- The all-zero frame has no set bit. -/
@[simp] theorem frameBit_zero (k : Fin 112) : frameBit (Vector.replicate 14 0) k = false := by
  simp [frameBit]

/-- The indices of a kind are those below its length. -/
theorem mem_frameIndices (kind : FrameKind) (k : Fin 112) : k ∈ frameIndices kind ↔ k.val < kindLen kind := by
  cases kind <;> revert k <;> decide +kernel

end Sys2Proof.Machine
end

