-- ==== Sys2Proof/Laws/PerInstr.lean ====
section
/-! SUPPORT. The per-instruction family EncodeShape (30_encoding.md R100, R101, R103): an encoded command is a word that
matches its row of the opcode map, followed by as many operand words as the row says. -/

namespace Sys2Proof.Laws.EncodeShape

/-- The encoding of `i` has the shape its row of R103 gives it. -/
def Statement (i : Instr) : Prop :=
  ∃ w ops, encode i = w :: ops ∧ w &&& i.opcode.mask = i.opcode.pattern ∧ ops.length = i.opcode.operandWords

/-- A command word with a byte in field `A` matches the row's pattern under the mask that leaves `A` out. -/
theorem commandWord_mask_A (o : Opcode) (a : Byte) :
    commandWord o a 0 &&& 0xFF00FFFF = o.pattern := by
  cases o <;> revert a <;> decide +kernel

/-- A command word without operand fields is its row's pattern. -/
theorem commandWord_mask_all (o : Opcode) : commandWord o 0 0 &&& 0xFFFFFFFF = o.pattern := by
  cases o <;> decide +kernel

theorem reset : Statement .reset := ⟨_, _, rfl, commandWord_mask_all .reset, rfl⟩
theorem csrrd (csr : Byte) : Statement (.csrrd csr) := ⟨_, _, rfl, commandWord_mask_A .csrrd csr, rfl⟩
theorem csrwr (csr : Byte) (data : Word) : Statement (.csrwr csr data) :=
  ⟨_, _, rfl, commandWord_mask_A .csrwr csr, rfl⟩
theorem anchor (secs : DWord) (frac : Word) (idx : DWord) : Statement (.anchor secs frac idx) :=
  ⟨_, _, rfl, commandWord_mask_all .anchor, rfl⟩
theorem crcCheck (length : Byte) : Statement (.crcCheck length) :=
  ⟨_, _, rfl, commandWord_mask_A .crcCheck length, rfl⟩
theorem detTest (j : Word) (n : Word) : Statement (.detTest j n) := ⟨_, _, rfl, commandWord_mask_all .detTest, rfl⟩
theorem runDetect (n : Word) : Statement (.runDetect n) := ⟨_, _, rfl, commandWord_mask_all .runDetect, rfl⟩
theorem sliceBit (e0 : Word) (e1 : Word) (ref : Word) : Statement (.sliceBit e0 e1 ref) :=
  ⟨_, _, rfl, commandWord_mask_all .sliceBit, rfl⟩
theorem sliceFrame (n : Word) : Statement (.sliceFrame n) := ⟨_, _, rfl, commandWord_mask_all .sliceFrame, rfl⟩
theorem clsKind (hdr : BitVec 5) : Statement (.clsKind hdr) :=
  ⟨_, _, rfl, by revert hdr; decide +kernel, rfl⟩
theorem clsFruit (n : Word) : Statement (.clsFruit n) := ⟨_, _, rfl, commandWord_mask_all .clsFruit, rfl⟩
theorem validate : Statement .validate := ⟨_, _, rfl, commandWord_mask_all .validate, rfl⟩
theorem nextcomb (x : Word) : Statement (.nextcomb x) := ⟨_, _, rfl, commandWord_mask_all .nextcomb, rfl⟩
theorem correct : Statement .correct := ⟨_, _, rfl, commandWord_mask_all .correct, rfl⟩
theorem runDecode (n : Word) : Statement (.runDecode n) := ⟨_, _, rfl, commandWord_mask_all .runDecode, rfl⟩

end Sys2Proof.Laws.EncodeShape
end

