-- ==== Sys2Proof/Tests/Slice0.lean ====
section
/-! SUPPORT. The model's own tests: the checks of WellFormed, decoded words written out from 30_encoding.md, one-step
tests whose expected results are those of 95_test_vectors.md, and a witness for the hypotheses of each obligation. -/

namespace Sys2Proof.Tests

open Sys2Proof.Machine

-- One theorem after another: a test that waits for the kernel would else hold a thread of its own.
set_option Elab.async false

/-! ### Small states and windows (SPC = 1) -/

/-- 4.0, the amplitude of a pulse in the vectors. -/
def pulse : Word := 0x40800000

/-- `N` pairs of amplitude 0.0 and reference 1.0. -/
def quiet (n : Nat) : Window := List.replicate n ⟨0, 0x3F800000⟩

/-- The window with 4.0 at these indices. -/
def withPulses (ps : List Nat) (w : Window) : Window :=
  ps.foldl (fun w j => w.modify j fun p => { p with amplitude := pulse }) w

/-- The preamble pulses of a burst at `i` (R6, R160). -/
def preamble (i : Nat) : List Nat := [i, i + 2, i + 7, i + 9]

/-- A quiet window with one preamble; `preambleWindow 300 10` is WA of 95_test_vectors.md. -/
def preambleWindow (n i : Nat) : Window := withPulses (preamble i) (quiet n)

/-- `FW(N, i, frame)` of 95_test_vectors.md. -/
def frameWindow (n i : Nat) (frame : Vector Byte 14) (kind : FrameKind) : Window :=
  withPulses ((frameIndices kind).map fun k => i + 16 + 2 * k.val + (if frameBit frame k then 0 else 1))
    (preambleWindow n i)

/-- Frame F of 95_test_vectors.md. -/
def frameF : Vector Byte 14 :=
  #v[0x8D, 0x48, 0x40, 0xD6, 0x20, 0x2C, 0xC3, 0x71, 0xC3, 0x2C, 0xE0, 0x57, 0x60, 0x98]

/-- Frame F with bit 0 flipped (V2.9). -/
def frameF0 : Vector Byte 14 := frameF.set 0 0x0D

/-- Frame S11. -/
def frameS11 : Vector Byte 14 := #v[0x5D, 0x48, 0x40, 0xD6, 0xF8, 0x74, 0x0F, 0, 0, 0, 0, 0, 0, 0]

/-- A reset core after `CSRWR THRESH_RATIO, 2.0`. -/
def core : State := { State.reset with threshRatio := 0x40000000, status := ⟨false, true, false, false, false⟩ }

/-- A reset core after a fault 0xF2. -/
def faulted : State :=
  { State.reset with status := ⟨true, false, false, false, false⟩, faultCode := 0xF2, outcome := 0xF2 }

/-- `core` after `ANCHOR 100, 0.5, 10` (P2). -/
def anchored : State :=
  { core with
    anchorSecs := 100, anchorFrac := 0x3F000000, anchorIdx := 10,
    status := ⟨false, true, true, false, false⟩ }

/-- A core that is presented with this window. -/
def seeing (s : State) (w : Window) : State := presentCall [] w s

/-- A core holding this frame, with these low-confidence positions. -/
def holding (kind : FrameKind) (frame : Vector Byte 14) (ps : List (Fin 112)) : State :=
  { core with
    kind := kind, fb := frame, lcbPos := Vector.ofFn fun n => ps.getD n.val 0, lcbTotal := Fin.ofNat 113 ps.length }

/-- Does the command answer a next state with this property? -/
def answers (i : Instr) (s : State) (p : State → Bool) : Bool :=
  match exec i s with
  | .next t => p t
  | .fault _ => false
  | .refused _ => false

/-- A command that answers a next state with a property has one. -/
theorem exists_of_answers {i : Instr} {s : State} {p : State → Bool} (h : answers i s p = true) :
    ∃ t, exec i s = .next t ∧ p t = true := by
  unfold answers at h
  cases he : exec i s with
  | next t => exact ⟨t, rfl, by simpa [he] using h⟩
  | fault r => simp [he] at h
  | refused r => simp [he] at h

/-- Does the step answer a next state with this response? -/
def responds (words : List Word) (w : Window) (s : State) (r : Response) : Bool :=
  match step (presentCall words w s) with
  | .next t => t.response == some r
  | .fault _ => false
  | .refused _ => false

/-! ### WellFormed: an ill-formed command for each check (R21, R22, R102, R134, R241; V9.5) -/

theorem test_wf_csrrd : (Instr.csrrd 0x99).wf = false ∧ (Instr.csrrd 0x60).wf = true := by decide +kernel
theorem test_wf_csrwr_unmapped : (Instr.csrwr 0x99 0).wf = false := by decide +kernel
theorem test_wf_csrwr_readOnly : (Instr.csrwr 0x60 0).wf = false := by decide +kernel
theorem test_wf_csrwr_value : (Instr.csrwr 0x08 25).wf = false ∧ (Instr.csrwr 0x08 24).wf = true := by decide +kernel
theorem test_wf_csrwr_infinite : (Instr.csrwr 0x01 0x7F800000).wf = false ∧ (Instr.csrwr 0x01 1).wf = true := by
  decide +kernel
theorem test_wf_anchor : (Instr.anchor 0 0x3F800000 0).wf = false ∧ (Instr.anchor 0 0x80000000 0).wf = true := by
  decide +kernel
theorem test_wf_crcCheck : (Instr.crcCheck 0x40).wf = false ∧ (Instr.crcCheck 0x38).wf = true := by decide +kernel
theorem test_wf_nextcomb : (Instr.nextcomb 0x1000000).wf = false ∧ (Instr.nextcomb 0xFFFFFF).wf = true := by
  decide +kernel

/-! ### Decoding: one word of every command, its fields written out (R100 to R103) -/

/-- OPC = 0000_0001, A = 0, B = 0. -/
theorem test_decode_reset : decode [0b00000001_00000000_0000000000000000] = .ok (.reset, []) := by decide +kernel
/-- OPC = 0000_0010, A = csr = 0x60. -/
theorem test_decode_csrrd : decode [0b00000010_01100000_0000000000000000] = .ok (.csrrd 0x60, []) := by decide +kernel
/-- OPC = 0000_0011, A = csr = 0x01, one operand word. -/
theorem test_decode_csrwr : decode [0b00000011_00000001_0000000000000000, 0x40000000] =
    .ok (.csrwr 0x01 0x40000000, []) := by decide +kernel
/-- OPC = 0000_0100, five operand words, each 64-bit operand low word first (R102). -/
theorem test_decode_anchor : decode [0b00000100_00000000_0000000000000000, 1, 2, 0x3F000000, 3, 4] =
    .ok (.anchor 0x0000000200000001 0x3F000000 0x0000000400000003, []) := by decide +kernel
/-- OPC = 0001_0000, A = 112. -/
theorem test_decode_crcCheck : decode [0b00010000_01110000_0000000000000000] = .ok (.crcCheck 112, []) := by
  decide +kernel
/-- OPC = 0010_0000, j then N. -/
theorem test_decode_detTest : decode [0b00100000_00000000_0000000000000000, 10, 300] = .ok (.detTest 10 300, []) := by
  decide +kernel
/-- OPC = 0010_0001. -/
theorem test_decode_runDetect : decode [0b00100001_00000000_0000000000000000, 300] = .ok (.runDetect 300, []) := by
  decide +kernel
/-- OPC = 0011_0000, e0, e1, ref. -/
theorem test_decode_sliceBit : decode [0b00110000_00000000_0000000000000000, 5, 6, 7] = .ok (.sliceBit 5 6 7, []) := by
  decide +kernel
/-- OPC = 0011_0001. -/
theorem test_decode_sliceFrame : decode [0b00110001_00000000_0000000000000000, 300] = .ok (.sliceFrame 300, []) := by
  decide +kernel
/-- OPC = 0100_0000, B[4:0] = hdr = 17. -/
theorem test_decode_clsKind : decode [0b01000000_00000000_0000000000010001] = .ok (.clsKind 17, []) := by decide +kernel
/-- OPC = 0100_0001. -/
theorem test_decode_clsFruit : decode [0b01000001_00000000_0000000000000000, 300] = .ok (.clsFruit 300, []) := by
  decide +kernel
/-- OPC = 0101_0000. -/
theorem test_decode_validate : decode [0b01010000_00000000_0000000000000000] = .ok (.validate, []) := by decide +kernel
/-- OPC = 0110_0000. -/
theorem test_decode_nextcomb : decode [0b01100000_00000000_0000000000000000, 3] = .ok (.nextcomb 3, []) := by
  decide +kernel
/-- OPC = 0110_0001. -/
theorem test_decode_correct : decode [0b01100001_00000000_0000000000000000] = .ok (.correct, []) := by decide +kernel
/-- OPC = 0111_0000. -/
theorem test_decode_runDecode : decode [0b01110000_00000000_0000000000000000, 300] = .ok (.runDecode 300, []) := by
  decide +kernel
/-- The illegal words of V9.4. -/
theorem test_decode_illegal :
    [0x00000000, 0xFFFFFFFF, 0x05000000, 0x01000001, 0x02600001, 0x50010000, 0x40000020, 0x22000000].map
      (fun w => match decode [w] with | .error (.illegalCommand v) => v == w | _ => false) =
    List.replicate 8 true := by decide +kernel
/-- An instruction numbered as opcode_table.json numbers it, and the words behind a command. -/
theorem test_decodeTableWord : decodeTableWord 64 0x4000000003010000 = some (.csrwr 0x01 0x40000000) ∧
    decodeTableWord 32 0x40000011 = some (.clsKind 17) ∧ decodeTableWord 32 0x20000000 = some (.detTest 0 0) := by
  decide +kernel
theorem test_decode_rest : decode [0x60000000, 3, 0x50000000] = .ok (.nextcomb 3, [0x50000000]) := by decide +kernel
/-- A call without all its words is no command. -/
theorem test_decode_missing : decode [0x20000000, 10] = .error (.missingOperands 0x20000000) ∧
    decode [] = .error .noCommandWord := by decide +kernel

/-! ### One step of each command, with the results of 95_test_vectors.md -/

/-- V9.3: RESET leaves the faulted state. -/
theorem test_reset : responds [0x01000000] [] faulted ⟨0x00, 0⟩ = true := by decide +kernel
/-- V9.1. -/
theorem test_csrrd : responds [0x02080000] [] State.reset ⟨0x00, 4⟩ = true ∧
    responds [0x02020000] [] State.reset ⟨0x00, 0x00330000⟩ = true := by decide +kernel
/-- V9.3: an unmapped CSR read in the faulted state. -/
theorem test_csrrd_faulted : responds [0x02990000] [] faulted ⟨0xF1, 0⟩ = true ∧
    responds [0x026A0000] [] faulted ⟨0x00, 0xF2⟩ = true := by decide +kernel
/-- V9.2. -/
theorem test_csrwr : answers (.csrwr 0x01 0x40000000) State.reset (fun t =>
    t.threshRatio == 0x40000000 && statusWord t.status == 0x02 && t.outcome == 0x00) = true := by decide +kernel
/-- V9.5 and V9.3. -/
theorem test_csrwr_stops : responds [0x03600000, 0] [] State.reset ⟨0xF1, 0⟩ = true ∧
    responds [0x03010000, 0x40000000] [] faulted ⟨0xFF, 0⟩ = true := by decide +kernel
/-- V9.2. -/
theorem test_anchor : answers (.anchor 1700000000 0x3E800000 1000) core (fun t =>
    statusWord t.status == 0x06 && readCsr 0x12 t == some 0x6553F100 && readCsr 0x15 t == some 0x000003E8) = true := by
  decide +kernel
/-- V2.2b, V2.2d: the Short segment of the table. -/
theorem test_crcCheck_short :
    answers (.crcCheck 56) (holding .long (Vector.replicate 14 0 |>.set 0 0x80) []) (fun t => t.syndrome == 0x018567)
      = true ∧
    answers (.crcCheck 112) (holding .short (Vector.replicate 14 0 |>.set 6 0x01) []) (fun t => t.syndrome == 0x030ACE)
      = true := by decide +kernel
/-- V2.8, V2.9. -/
theorem test_crcCheck_long :
    answers (.crcCheck 112) (holding .long (Vector.replicate 14 0xFF) []) (fun t => t.syndrome == 0x2E26B3) = true ∧
    answers (.crcCheck 112) (holding .long frameF0 []) (fun t => t.syndrome == 0x3935EA) = true := by decide +kernel
/-- V2.9: frame bit 0 is bit 7 of FB0. -/
theorem test_flipFrameBit : frameBit frameF 0 = true ∧ flipFrameBit frameF 0 = frameF0 := by decide +kernel
/-- V4.1 on WA cut after index 26, the last one candidate 10 needs. -/
theorem test_detTest_accepts : answers (.detTest 10 27) (seeing core (preambleWindow 27 10)) (fun t =>
    t.outcome == 0x03 && t.burstOffset == 10 && t.refLevel == pulse && t.res0 == 0) = true ∧
    answers (.detTest 10 26) (seeing core (preambleWindow 26 10)) (fun t => t.outcome == 0x01) = true := by decide +kernel
/-- V4.1: a later pulse is missing. -/
theorem test_detTest_rejects : answers (.detTest 12 30) (seeing core (preambleWindow 30 10)) (fun t =>
    t.outcome == 0x04 && t.res0 == 3 && t.burstOffset == 0) = true := by decide +kernel
/-- P2, first burst. -/
theorem test_runDetect : answers (.runDetect 300)
    (seeing anchored (preambleWindow 300 10)) (fun t =>
      t.outcome == 0x03 && t.consumed == 250 && t.produced == 1 && t.absCount == 250 && t.tsSecs == 100 &&
      t.tsFrac == 0x3F000000 && t.status.tsValid) = true := by decide +kernel
/-- P2, second burst: a rounded fraction of a second. -/
theorem test_timestamp_fraction :
    (timestamp 40 { anchored with absCount := 250 }).tsFrac = 0x3F00092D := by decide +kernel
/-- V3 rows 1, 4. -/
theorem test_sliceBit : answers (.sliceBit pulse 0 pulse) State.reset (fun t => t.res0 == 3) = true ∧
    answers (.sliceBit 0x40A00000 0x40400000 pulse) State.reset (fun t => t.res0 == 1) = true := by decide +kernel
/-- V3 rows 8, 25: bounds are strict, and a NaN compares false. -/
theorem test_sliceBit_edges :
    answers (.sliceBit 0x40000000 0x41000000 pulse) State.reset (fun t => t.res0 == 0) = true ∧
    answers (.sliceBit pulse 0 0x7FC00000) State.reset (fun t => t.res0 == 1) = true := by decide +kernel
/-- P5 step 5 with the Short frame S11 at offset 0 in the smallest window. -/
theorem test_sliceFrame : answers (.sliceFrame 240)
    (seeing { core with refLevel := pulse } (frameWindow 240 0 frameS11 .short)) (fun t =>
      t.outcome == 0x00 && t.fb == frameS11 && t.kind == .short && t.lcbTotal == 0) = true := by decide +kernel
/-- R24: bits 16, 17, 20, 21 of the reset mask are set. -/
theorem test_clsKind : answers (.clsKind 17) State.reset (fun t => t.res0 == 1) = true ∧
    answers (.clsKind 11) State.reset (fun t => t.res0 == 0) = true := by decide +kernel
/-- R213: the first and the last candidate of a Short frame at offset 0. -/
theorem test_clsFruit : answers (.clsFruit 128) (seeing core (preambleWindow 128 16)) (fun t =>
      t.outcome == 0x21 && t.res0 == 16 && t.status.fruited) = true ∧
    answers (.clsFruit 128) (seeing core (preambleWindow 128 111)) (fun t => t.outcome == 0x21 && t.res0 == 111)
      = true := by decide +kernel
/-- R213: the index after the last candidate. -/
theorem test_clsFruit_clean : answers (.clsFruit 129) (seeing core (preambleWindow 129 112)) (fun t =>
    t.outcome == 0x2A && t.res0 == 0 && !t.status.fruited) = true := by decide +kernel
/-- P1 step 24. -/
theorem test_validate_corrects : answers .validate (holding .long frameF0 [3, 0, 50]) (fun t =>
    t.outcome == 0x11 && t.fb == frameF && t.syndrome == 0) = true := by decide +kernel
/-- V7.12: the bits from 56 up are not looked at for a Short frame. -/
theorem test_validate_allZero :
    answers .validate (holding .short #v[0, 0, 0, 0, 0, 0, 0, 255, 255, 255, 255, 255, 255, 255] []) (fun t =>
      t.outcome == 0x20) = true := by decide +kernel
/-- V8.7. -/
theorem test_nextcomb : answers (.nextcomb 0xFF0000) State.reset (fun t => t.res0 == 0x100007F) = true ∧
    answers (.nextcomb 0xC) State.reset (fun t => t.res0 == 0x11) = true := by decide +kernel
/-- V8.5a, V8.4. -/
theorem test_correct :
    answers .correct (holding .long (frameF0.set 6 0xE3) [0, 20, 50, 77]) (fun t => t.outcome == 0x29 && t.fb == frameF)
      = true := by decide +kernel
theorem test_correct_ambiguous : answers .correct (holding .long frameF0 [0, 0]) (fun t =>
    t.outcome == 0x27 && t.fb == frameF0 && t.syndrome == 0x3935EA) = true := by decide +kernel
/-- V6 on the Short frame S11: accepted. -/
theorem test_runDecode_accepts : answers (.runDecode 251) (seeing core (frameWindow 251 10 frameS11 .short)) (fun t =>
    t.outcome == 0x10 && t.fb == frameS11 && t.consumed == 250 && t.produced == 1 && t.absCount == 250) = true := by
  decide +kernel
/-- P4 step 9: a preamble and no data. -/
theorem test_runDecode_allZero : answers (.runDecode 251) (seeing core (preambleWindow 251 10)) (fun t =>
    t.outcome == 0x20 && t.consumed == 250 && t.produced == 0 && t.burstOffset == 10 && !t.status.fruited) = true := by
  decide +kernel

/-- V9.4: an illegal word faults the core, and R310: without a call nothing happens. -/
theorem test_step_illegal : responds [0x05000000] [] State.reset ⟨0xF0, 0⟩ = true ∧
    responds [0x05000000] [] faulted ⟨0xFF, 0⟩ = true := by decide +kernel
theorem test_step_idle : step State.reset = .next State.reset := rfl
/-- Candidate order of V8 for k = 4. -/
theorem test_candidates : candidates 4 = [1, 2, 4, 8, 3, 5, 6, 9, 10, 12, 7, 11, 13, 14, 15] := by decide +kernel
/-- R8: 2^24 + 1 is a tie and rounds to even. -/
theorem test_ofNat_tie : (Fp32.ofNat 16777217).toBits = 0x4B800000 := by decide +kernel
/-- R37: the canonical form of the frame registers holds at reset. -/
theorem test_reset_frame : UpperBitsZero State.reset ∧ PositionsOrdered State.reset := by
  refine ⟨fun k _ => frameBit_zero k, ?_, ?_, ?_⟩
  · intro a b _ h
    exact absurd h (Nat.not_lt_zero _)
  · intro a h
    exact absurd h (Nat.not_lt_zero _)
  · decide +kernel

/-! ### A witness for the hypotheses of each obligation

`witness_<Name>` names the obligation. Each clause with hypotheses of its own has its own part. -/

theorem presents_quiet (n : Nat) (s : State) (hn : n < 2 ^ 32) (hc : s.config.wf = true) :
    (seeing s (quiet n)).Presents (BitVec.ofNat 32 n) :=
  ⟨by simpa [seeing, presentCall, presentedWindow, quiet] using hn, hc⟩

theorem witness_ResetCommand : fieldOpc 0x01000001 = 0x01 ∧ (0x01000001 : Word) ≠ 0x01000000 ∧
    (presentCall [0x01000001] [] core).calls = ⟨[0x01000001], []⟩ :: [] ∧ core.status.fault = false ∧
    (presentCall [0x01000001] [] faulted).calls = ⟨[0x01000001], []⟩ :: [] ∧ faulted.status.fault = true := by
  decide +kernel

theorem witness_StepRunsTheDecodedCommand :
    State.reset.calls = [] ∧
    (presentCall [0x60000000, 3] [] core).calls = ⟨[0x60000000, 3], []⟩ :: [] ∧
    decode [0x60000000, 3] = .ok (.nextcomb 3, []) := by decide +kernel

theorem witness_IllegalEncodingsFault :
    (presentCall [0x40000020] [] core).Running ∧
    (presentCall [0x40000020] [] core).calls = ⟨[0x40000020], []⟩ :: [] ∧
    (∀ o ∈ Opcode.all, (0x40000020 : Word) &&& o.mask ≠ o.pattern) ∧
    core.Running ∧
    (∀ a ∈ [0x37, 0x39, 0x6F, (0x71 : Byte)], a ≠ 0x38 ∧ a ≠ 0x70) ∧
    (∀ a ∈ [0x00, 0x09, 0x17, 0x24, 0x3E, 0x58, 0x6C, (0xFF : Byte)], Csr.ofNumber a = none) := by
  refine ⟨rfl, ?_, ?_, rfl, ?_, ?_⟩ <;> decide +kernel

theorem witness_IllegalIsMatchingNoRow :
    (decode [0x40000020, 0] = .error (.illegalCommand 0x40000020)) ∧
    ¬ ∀ o ∈ Opcode.all, (0x4000001F : Word) &&& o.mask ≠ o.pattern := by decide +kernel

theorem witness_EncodeOfDecode : decode [0x40000011, 0x50000000] = .ok (.clsKind 17, [0x50000000]) := by decide +kernel

theorem witness_CsrMapReads :
    readCsr 0x08 core ≠ none ∧ readCsr 0x09 core = none ∧ readCsr 0x0F core = none ∧ readCsr 0x10 core ≠ none ∧
    readCsr 0x16 core ≠ none ∧ readCsr 0x17 core = none ∧ readCsr 0x23 core ≠ none ∧ readCsr 0x24 core = none ∧
    readCsr 0x3D core ≠ none ∧ readCsr 0x3E core = none ∧ readCsr 0x57 core ≠ none ∧ readCsr 0x58 core = none ∧
    readCsr 0x6B core ≠ none ∧ readCsr 0x6C core = none := by decide +kernel

theorem witness_CsrrdCommand :
    readCsr 0x6B core = some 0x02 ∧ readCsr 0x6C core = none ∧ core.Running ∧
    readCsr 0x6C faulted = none ∧ ¬ faulted.Running :=
  ⟨by decide +kernel, by decide +kernel, rfl, by decide +kernel, by simp [State.Running, faulted]⟩

theorem witness_CsrwrStoresLegalData :
    core.Running ∧ Csr.ofNumber 0x01 = some .threshRatio ∧ Csr.threshRatio.legal 0x00000001 = true ∧
    Csr.ofNumber 0x57 = some (.lcbPos 23) ∧ (Csr.lcbPos 23).legal 111 = true :=
  ⟨rfl, by decide +kernel, by decide +kernel, by decide +kernel, by decide +kernel⟩

theorem witness_CsrwrRefusesIllegalData :
    core.Running ∧ Csr.ofNumber 0x01 = some .threshRatio ∧ Csr.threshRatio.legal 0x80000000 = false ∧
    Csr.ofNumber 0x60 = some .outcome ∧ Csr.outcome.legal 0 = false :=
  ⟨rfl, by decide +kernel, by decide +kernel, by decide +kernel, by decide +kernel⟩

theorem witness_AnchorCommand : core.Running ∧ (0x3F7FFFFF : Word).toNat < 0x3F800000 ∧
    0x3F800000 ≤ (0x3F800000 : Word).toNat ∧ (0x3F800000 : Word) ≠ 0x80000000 :=
  ⟨rfl, by decide, by decide, by decide⟩

/-- For the statements whose only hypothesis is a running core: CrcCheckCommand, SliceBitCommand, ClsKindCommand,
ValidateCommand, NextcombCommand, CorrectCommand. -/
theorem witness_Running : State.reset.Running ∧ core.Running := ⟨rfl, rfl⟩

theorem witness_DetTestCommand :
    (seeing core (quiet 17)).Running ∧ (seeing core (quiet 17)).Presents 17 ∧
    (seeing core (quiet 17)).status.cfgValid = true ∧
    (seeing State.reset (quiet 17)).Running ∧ (seeing State.reset (quiet 17)).Presents 17 ∧
    (seeing State.reset (quiet 17)).status.cfgValid = false :=
  ⟨rfl, presents_quiet 17 core (by decide) rfl, rfl, rfl, presents_quiet 17 State.reset (by decide) rfl, rfl⟩

/-- The window of V4.1 cut after index 26, with one amplitude changed (V4.2). -/
def changedWindow (j : Nat) (amplitude : Word) : Window :=
  (preambleWindow 27 10).modify j fun p => { p with amplitude := amplitude }

/-- V4.1, V4.2: the candidate accepted, and one dropped at each step (5.0, 2.0, 2.5 and 16.0 in the changed sample). -/
theorem witness_DetectorStepsDecide :
    0 < core.config.spc ∧ 10 + 16 * core.config.spc < (preambleWindow 27 10).length ∧
    detTest core (preambleWindow 27 10) 10 = some (.accept 10 pulse) ∧
    detTest core (preambleWindow 27 10) 9 = some (.reject .belowThreshold) ∧
    detTest core (changedWindow 11 0x40A00000) 10 = some (.reject .stillRising) ∧
    detTest core (changedWindow 12 0x40000000) 10 = some (.reject .pulseMissing) ∧
    detTest core (changedWindow 14 0x40200000) 10 = some (.reject .spaceViolated) ∧
    detTest core (changedWindow 12 0x41800000) 10 = some (.reject .spreadViolated) := by
  decide +kernel

/-- The window of V4.3 (b). -/
def lateWindow (n : Nat) : Window :=
  (([12, 17, 19].foldl (fun w j => w.modify j fun p => { p with amplitude := 0x3F800000 })
    (withPulses [10, 11, 13, 18, 20] (quiet n))).modify 10 fun p => { p with reference := 0x3E800000 })

/-- V4.3 (b): a candidate that refinement moves by one, its limit; and one it leaves. -/
theorem witness_RefinementIsBounded :
    detTest core (lateWindow 28) 10 = some (.accept 11 pulse) ∧
    detTest core (preambleWindow 27 10) 10 = some (.accept 10 pulse) := by
  decide +kernel

/-- Two windows that differ in a sample before the candidate, in a later reference level and behind the span. -/
theorem witness_DetTestReadsOnlyItsSpan :
    let w := preambleWindow 27 10
    let w' := (((preambleWindow 27 10).modify 9 fun p => { p with amplitude := 0x42C80000 }).modify 11 fun p =>
      { p with reference := 0x7FC00000 }) ++ [⟨0x42C80000, 0x42C80000⟩]
    w ≠ w' ∧ 0 < core.config.spc ∧ 10 + 16 * core.config.spc < w.length ∧ 10 + 16 * core.config.spc < w'.length ∧
    (∀ k ≤ 10 + 16 * core.config.spc, 10 ≤ k → (w[k]?).map (·.amplitude) = (w'[k]?).map (·.amplitude)) ∧
    (w[10]?).map (·.reference) = (w'[10]?).map (·.reference) := by decide +kernel

theorem witness_ScanFindsTheFirstBurst :
    scan core (quiet 240) = some .insufficient ∧ scan core (quiet 241) = some (.noBurst 1) ∧
    scan core (preambleWindow 241 0) = some (.burst 0 pulse 240) := by decide +kernel

/-- For RunDetectCommand, RunDecodeCommand and ClsFruitCommand without a ratio. -/
theorem witness_RunDetectCommand :
    (seeing core (quiet 241)).Running ∧ (seeing core (quiet 241)).Presents 241 ∧
    (seeing core (quiet 241)).status.cfgValid = true ∧
    (seeing State.reset (quiet 241)).Running ∧ (seeing State.reset (quiet 241)).Presents 241 ∧
    (seeing State.reset (quiet 241)).status.cfgValid = false :=
  ⟨rfl, presents_quiet 241 core (by decide) rfl, rfl, rfl, presents_quiet 241 State.reset (by decide) rfl, rfl⟩

/-- Without an anchor; with one, before it and after it. -/
theorem witness_TimestampRule :
    core.status.anchorValid = false ∧ 0 < core.config.sampleRate ∧
    anchored.status.anchorValid = true ∧
    ((anchored.absCount.toNat : Int) + 9) - anchored.anchorIdx.toNat = -1 * anchored.config.sampleRate + 1999999 := by decide +kernel

theorem witness_QuietWindowHasNoBurst :
    (seeing core (quiet 241)).Running ∧ (seeing core (quiet 241)).Presents 241 ∧
    (seeing core (quiet 241)).status.cfgValid = true ∧
    241 * (seeing core (quiet 241)).config.spc ≤ (241 : Word).toNat ∧
    (∀ p ∈ presentedWindow (seeing core (quiet 241)),
      (Fp32.ofBits p.amplitude).gt ((Fp32.ofBits p.reference).mul (Fp32.ofBits (seeing core (quiet 241)).threshRatio))
        = false) :=
  ⟨rfl, presents_quiet 241 core (by decide) rfl, rfl, by decide, by decide +kernel⟩

/-- V3 rows 1, 2, 4, 9 and 8, one for each clause: `low = 2.0`, `high = 8.0`. -/
theorem witness_SlicerDecision :
    let ref := Fp32.ofBits pulse
    let low := ref.mul (Fp32.ofBits State.reset.sliceLow)
    let high := ref.mul (Fp32.ofBits State.reset.sliceHigh)
    let In := fun e : Fp32 => low.lt e = true ∧ e.lt high = true
    let four := Fp32.ofBits pulse
    let zero := Fp32.ofBits 0
    let two := Fp32.ofBits 0x40000000
    let eight := Fp32.ofBits 0x41000000
    let five := Fp32.ofBits 0x40A00000
    (In four ∧ ¬ In zero) ∧ (In five ∧ In four) ∧
    (¬ In eight ∧ ¬ In two ∧ eight.gt two = true) ∧ (¬ In two ∧ ¬ In eight ∧ two.gt eight = false) := by
  decide +kernel

theorem witness_SliceFrameCommand :
    (seeing core (quiet 240)).Running ∧ (seeing core (quiet 240)).Presents 240 ∧
    (seeing core (quiet 240)).burstOffset.toNat + 240 * (seeing core (quiet 240)).config.spc ≤ (240 : Word).toNat ∧
    (seeing core (quiet 239)).Running ∧ (seeing core (quiet 239)).Presents 239 ∧
    (239 : Word).toNat < (seeing core (quiet 239)).burstOffset.toNat + 240 * (seeing core (quiet 239)).config.spc :=
  ⟨rfl, presents_quiet 240 core (by decide) rfl, by decide, rfl, presents_quiet 239 core (by decide) rfl, by decide⟩

/-- For SlicedFrameMatchesTheChips and SlicedFrameInvariants: a Short frame in the smallest window. -/
theorem witness_SlicedFrame : ∃ t, sliceFrame (quiet 240) 0 pulse core = some t :=
  sliceFrame_answers (by decide +kernel) (by decide +kernel)

/-- A Long frame, some of whose bits are doubtful. -/
theorem witness_SlicedFrame_long :
    (sliceFrame (withPulses [16, 17, 18, 24, 200, 201] (quiet 240)) 0 pulse { core with longMask := 0xFFFFFFFF }).any
      (fun t => t.kind == .long && t.lcbTotal == 2 && t.lcbPos[1] == 92) = true := by decide +kernel

theorem witness_FruitFindsTheFirst :
    fruit core (preambleWindow 128 111) 0 .short = some (some 111) ∧
    fruit core (preambleWindow 129 112) 0 .short = some none := by decide +kernel

theorem witness_ClsFruitCommand :
    (seeing core (quiet 128)).Running ∧ (seeing core (quiet 128)).Presents 128 ∧
    (seeing core (quiet 128)).status.cfgValid = true ∧
    (seeing core (quiet 128)).burstOffset.toNat +
      kindSpan (seeing core (quiet 128)).config.spc (seeing core (quiet 128)).kind ≤ (128 : Word).toNat ∧
    (seeing core (quiet 127)).Running ∧ (seeing core (quiet 127)).Presents 127 ∧
    (127 : Word).toNat < (seeing core (quiet 127)).burstOffset.toNat +
      kindSpan (seeing core (quiet 127)).config.spc (seeing core (quiet 127)).kind ∧
    (seeing State.reset (quiet 128)).Presents 128 ∧ (seeing State.reset (quiet 128)).status.cfgValid = false :=
  ⟨rfl, presents_quiet 128 core (by decide) rfl, rfl, by decide, rfl, presents_quiet 127 core (by decide) rfl, by decide,
    presents_quiet 128 State.reset (by decide) rfl, rfl⟩

/-- V7 and V8: VALIDATE and CORRECT end without a fault, with and without a change of the frame. -/
theorem witness_ValidatorAndCorrectorFrame :
    (∃ t, exec .validate (holding .short (Vector.replicate 14 0) []) = .next t ∧
      (t.status.fault == false && t.outcome == 0x20) = true) ∧
    (∃ t, exec .correct (holding .long frameF0 [3, 50]) = .next t ∧
      (t.status.fault == false && t.outcome == 0x26) = true) :=
  ⟨exists_of_answers (by decide +kernel), exists_of_answers (by decide +kernel)⟩

theorem witness_ValidateIsIdempotent :
    (∃ t, exec .validate (holding .long frameF0 [3, 0, 50]) = .next t ∧
      (t.outcome == 0x11 && decide (¬ ∀ k : Fin 112, k.val < kindLen t.kind → frameBit t.fb k = false) &&
        decide (¬ ((t.fb[0] >>> 3).toNat = 11 ∧ 10 ≤ t.lcbTotal.val))) = true) ∧
    (holding .long frameF0 [3, 0, 50]).lcbLimit.val < 10 ∧
    (∃ t, exec .validate (holding .long frameF []) = .next t ∧ (t.outcome == 0x10) = true) :=
  ⟨exists_of_answers (by decide +kernel), by decide, exists_of_answers (by decide +kernel)⟩

theorem witness_AcceptedFramesHaveSyndromeZero :
    (∃ t, exec .correct (holding .long frameF []) = .next t ∧ (t.outcome == 0x28) = true) ∧
    (∃ t, exec .correct (holding .long frameF0 [0]) = .next t ∧ (t.outcome == 0x29) = true) ∧
    (∃ t, exec .validate (holding .short frameS11 []) = .next t ∧ (t.outcome == 0x10) = true) ∧
    (∃ t, exec .validate (holding .long frameF0 [0]) = .next t ∧ (t.outcome == 0x11) = true) ∧
    (∃ t, exec (.runDecode 251) (seeing core (frameWindow 251 10 frameS11 .short)) = .next t ∧ t.produced = 1) ∧
    (seeing core (frameWindow 251 10 frameS11 .short)).status.cfgValid = true ∧
    (seeing core (frameWindow 251 10 frameS11 .short)).Presents 251 := by
  refine ⟨exists_of_answers (by decide +kernel), exists_of_answers (by decide +kernel),
    exists_of_answers (by decide +kernel), exists_of_answers (by decide +kernel), ?_, rfl,
    by decide +kernel, by decide +kernel⟩
  obtain ⟨t, ht, hp⟩ := exists_of_answers test_runDecode_accepts
  exact ⟨t, ht, by simp only [Bool.and_eq_true, beq_iff_eq] at hp; exact hp.1.2⟩

theorem witness_NextCombIsLeast : 0 < 12 ∧ 12 < 17 ∧ popcount 17 = popcount 12 := by decide +kernel

theorem witness_NextcombCommand :
    core.Running ∧ (0xFFFFFF : Word).toNat < 2 ^ 24 ∧ 2 ^ 24 ≤ (0x1000000 : Word).toNat := ⟨rfl, by decide, by decide⟩

/-- V8.8, V8.5b, V8.10, V8.1 and V8.4: one state for each clause. -/
theorem witness_CorrectByCountingMatches :
    let syn := fun s : State => crc s.config.parityTable .long s.fb
    let Match := fun (s : State) (m : Nat) => 0 < m ∧ m < 2 ^ s.lcbTotal.val ∧
      (selected m (recordedPositions s)).foldl (fun c p => c ^^^ s.config.parityTable[p.val]) (syn s) = 0
    syn (holding .long frameF []) = 0 ∧
    (syn (holding .long frameF0 [0, 1, 2, 3, 4]) ≠ 0 ∧ (holding .long frameF0 [0, 1, 2, 3, 4]).lcbLimit.val <
      (holding .long frameF0 [0, 1, 2, 3, 4]).lcbTotal.val) ∧
    (syn (holding .long frameF0 []) ≠ 0 ∧ ∀ m, ¬ Match (holding .long frameF0 []) m) ∧
    (syn (holding .long frameF0 [0]) ≠ 0 ∧ Match (holding .long frameF0 [0]) 1 ∧
      ∀ m, Match (holding .long frameF0 [0]) m → m = 1) ∧
    (syn (holding .long frameF0 [0, 0]) ≠ 0 ∧ Match (holding .long frameF0 [0, 0]) 1 ∧
      Match (holding .long frameF0 [0, 0]) 2) := by
  refine ⟨by decide +kernel, by decide +kernel, ⟨by decide +kernel, ?_⟩, ⟨by decide +kernel, by decide +kernel, ?_⟩,
    by decide +kernel, by decide +kernel, by decide +kernel⟩
  · rintro m ⟨h0, h1, -⟩
    have h1 : m < 1 := h1
    omega
  · rintro m ⟨h0, h1, -⟩
    have h1 : m < 2 := h1
    omega

theorem witness_CorrectCommand :
    (holding .short frameF []).Running ∧ (holding .short frameF []).kind = .short ∧
    (holding .long frameF []).Running ∧ (holding .long frameF []).kind = .long := ⟨rfl, rfl, rfl, rfl⟩

/-- RUN.DECODE on the windows of each result: too short, no burst, a burst without data. -/
theorem witness_RunDecodeFrame :
    (seeing core (preambleWindow 251 10)).Running ∧ (seeing core (preambleWindow 251 10)).Presents 251 ∧
    (seeing core (preambleWindow 251 10)).status.cfgValid = true ∧
    (∃ t, exec (.runDecode 251) (seeing core (preambleWindow 251 10)) = .next t ∧ t.outcome = 0x20) ∧
    (∃ t, exec (.runDecode 240) (seeing core (quiet 240)) = .next t ∧ (t.outcome == 0x01) = true) ∧
    (∃ t, exec (.runDecode 241) (seeing core (quiet 241)) = .next t ∧ (t.outcome == 0x02) = true) ∧
    (seeing core (quiet 240)).Presents 240 ∧ (seeing core (quiet 241)).Presents 241 := by
  refine ⟨rfl, ⟨by decide +kernel, rfl⟩, rfl, ?_, exists_of_answers (by decide +kernel),
    exists_of_answers (by decide +kernel), presents_quiet 240 core (by decide) rfl,
    presents_quiet 241 core (by decide) rfl⟩
  obtain ⟨t, ht, hp⟩ := exists_of_answers test_runDecode_allZero
  exact ⟨t, ht, by simp only [Bool.and_eq_true, beq_iff_eq] at hp; exact hp.1.1.1.1⟩

/-- RUN.DETECT at the smallest window with a candidate, its three results, and another command of opcode 0x10 or above. -/
theorem witness_ConsumptionRule :
    (∃ t, exec (.runDetect 240) (seeing core (quiet 240)) = .next t ∧ (t.outcome == 0x01) = true) ∧
    (∃ t, exec (.runDetect 241) (seeing core (quiet 241)) = .next t ∧ (t.outcome == 0x02) = true) ∧
    (∃ t, exec (.runDetect 241) (seeing core (preambleWindow 241 0)) = .next t ∧ (t.outcome == 0x03) = true) ∧
    (seeing core (preambleWindow 241 0)).Presents 241 ∧
    0x10 ≤ (Instr.crcCheck 56).opcode.number.toNat ∧
    (∃ t, exec (.crcCheck 56) core = .next t ∧ (t.status.fault == false) = true) :=
  ⟨exists_of_answers (by decide +kernel), exists_of_answers (by decide +kernel), exists_of_answers (by decide +kernel),
    ⟨by decide +kernel, rfl⟩, by decide, exists_of_answers (by decide +kernel)⟩

theorem witness_RunDecodeDecomposes :
    (seeing core (preambleWindow 251 10)).Running ∧ (seeing core (preambleWindow 251 10)).Presents 251 ∧
    (seeing core (preambleWindow 251 10)).status.cfgValid = true ∧
    scan (seeing core (preambleWindow 251 10)) (presentedWindow (seeing core (preambleWindow 251 10))) =
      some (.burst 10 pulse 250) ∧
    ∃ t, exec (.runDecode 251) (seeing core (preambleWindow 251 10)) = .next t :=
  ⟨rfl, ⟨by decide +kernel, rfl⟩, rfl, by decide +kernel,
    (exists_of_answers test_runDecode_allZero).imp fun _ h => h.1⟩

theorem witness_EveryCommandAnswers : core.config.wf = true ∧ referenceConfig.wf = true := by decide

theorem witness_FaultedCoreRefuses :
    faulted.status.fault = true ∧ Instr.validate ≠ .reset ∧ (∀ csr, Instr.validate ≠ .csrrd csr) ∧
    readCsr 0x99 faulted = none ∧ readCsr 0x6A faulted = some 0xF2 ∧
    (presentCall [0x00000000] [] faulted).calls = ⟨[0x00000000], []⟩ :: [] ∧
    decode [0x00000000] = .error (.illegalCommand 0x00000000) :=
  ⟨rfl, by decide, by simp, by decide +kernel, by decide +kernel, rfl, by decide +kernel⟩

theorem witness_FaultEntryKeepsTheState :
    core.Running ∧ ∃ t, exec (.crcCheck 0x40) core = .next t ∧ t.status.fault = true :=
  ⟨rfl, exists_of_answers (by decide +kernel)⟩

theorem witness_FaultPriority :
    (seeing State.reset (quiet 299)).Running ∧ windowOperand (.runDecode 300) = some 300 ∧
    (300 : Word).toNat ≠ (presentedWindow (seeing State.reset (quiet 299))).length ∧
    (299 : Word).toNat = (presentedWindow (seeing State.reset (quiet 299))).length ∧
    windowOperand (.runDecode 299) = some 299 ∧ needsRatio (.runDecode 299) = true ∧
    (seeing State.reset (quiet 299)).status.cfgValid = false :=
  ⟨rfl, rfl, by decide +kernel, by decide +kernel, rfl, rfl, rfl⟩

theorem witness_IllFormedCommandsFault : core.Running ∧ (Instr.csrwr 0x20 2).wf = false := ⟨rfl, by decide +kernel⟩

theorem witness_InvariantAtReset : (⟨2, 4000000, parityTable⟩ : Config).wf = true := by decide

/-- A configured core that is about to execute RUN.DETECT, and a faulted one. -/
theorem witness_InvariantKept :
    (presentCall [0x21000000, 241] (preambleWindow 241 0) core).Inv ∧
    (∃ t, step (presentCall [0x21000000, 241] (preambleWindow 241 0) core) = .next t) ∧
    (presentCall [0x01000000] [] faulted).Inv ∧ (∃ t, step (presentCall [0x01000000] [] faulted) = .next t) := by
  have hrun : decode [0x21000000, 241] = .ok (.runDetect 241, []) := by decide +kernel
  have hreset : decode [0x01000000] = .ok (.reset, []) := by decide +kernel
  obtain ⟨t, ht, -⟩ := exists_of_answers (i := .runDetect 241)
    (s := presentCall [0x21000000, 241] (preambleWindow 241 0) core) (p := fun t => t.outcome == 0x03)
    (by decide +kernel)
  obtain ⟨u, hu, -⟩ := exists_of_answers (i := .reset) (s := presentCall [0x01000000] [] faulted)
    (p := fun _ => true) (by decide +kernel)
  refine ⟨?_, ⟨retireCall t, ?_⟩, ?_, ⟨retireCall u, ?_⟩⟩
  · constructor
    case fault => exact ⟨rfl, .ok, by decide, rfl⟩
    all_goals decide +kernel
  · simp only [step, presentCall] at ht ⊢
    simp only [hrun, ht, retire]
  · constructor
    case fault => exact ⟨.notConfigured, rfl, rfl⟩
    all_goals decide +kernel
  · simp only [step, presentCall] at hu ⊢
    simp only [hreset, hu, retire]

/-- For ControlRegisterWriters, FrameRegisterWriters and ResultRegisterWriters: a command that is none of those a clause
sets apart, and one of opcode below 0x10. -/
theorem witness_RegisterWriters :
    (∃ t, exec (.crcCheck 112) core = .next t) ∧
    (Instr.crcCheck 112 ≠ .reset ∧ (∀ csr data, Instr.crcCheck 112 ≠ .csrwr csr data) ∧
      (∀ n, Instr.crcCheck 112 ≠ .runDetect n ∧ Instr.crcCheck 112 ≠ .runDecode n) ∧
      (∀ secs frac idx, Instr.crcCheck 112 ≠ .anchor secs frac idx) ∧
      (∀ n, Instr.crcCheck 112 ≠ .sliceFrame n ∧ Instr.crcCheck 112 ≠ .runDecode n) ∧
      Instr.crcCheck 112 ≠ .validate ∧ Instr.crcCheck 112 ≠ .correct ∧
      (∀ j n, Instr.crcCheck 112 ≠ .detTest j n ∧ Instr.crcCheck 112 ≠ .runDetect n ∧
        Instr.crcCheck 112 ≠ .runDecode n) ∧
      (∀ j n, Instr.crcCheck 112 ≠ .detTest j n) ∧ (∀ a b c, Instr.crcCheck 112 ≠ .sliceBit a b c) ∧
      (∀ h, Instr.crcCheck 112 ≠ .clsKind h) ∧ (∀ n, Instr.crcCheck 112 ≠ .clsFruit n) ∧
      (∀ x, Instr.crcCheck 112 ≠ .nextcomb x)) ∧
    (∃ t, exec (.clsKind 17) core = .next t) ∧
    (Instr.clsKind 17 ≠ .reset ∧ (∀ a, Instr.clsKind 17 ≠ .crcCheck a) ∧ Instr.clsKind 17 ≠ .validate ∧
      Instr.clsKind 17 ≠ .correct ∧ (∀ n, Instr.clsKind 17 ≠ .runDecode n)) ∧
    (∃ t, exec (.csrrd 0x60) core = .next t ∧ (t.status.fault == core.status.fault) = true) ∧
    (Instr.csrrd 0x60).opcode.number.toNat < 0x10 := by
  refine ⟨(exists_of_answers (p := fun _ => true) (by decide +kernel)).imp fun _ h => h.1, ?_,
    (exists_of_answers (p := fun _ => true) (by decide +kernel)).imp fun _ h => h.1, ?_,
    exists_of_answers (by decide +kernel), by decide⟩ <;> simp

/-- The events that write TS_VALID and FRUITED, and a command that is none of them. -/
theorem witness_FlagWriters :
    (∃ t, exec .reset faulted = .next t) ∧
    (∃ t, exec (.runDecode 251) (seeing core (preambleWindow 251 10)) = .next t ∧ t.outcome = 0x20) ∧
    (∃ t, exec (.runDetect 241) (seeing core (preambleWindow 241 0)) = .next t ∧
      (t.status.fault == false && t.outcome == 0x03) = true) ∧
    (∃ t, exec (.clsFruit 128) (seeing core (preambleWindow 128 16)) = .next t ∧
      (t.status.fault == false && t.outcome == 0x21) = true) ∧
    (∃ t, exec (.csrwr 0x01 0x40000000) State.reset = .next t ∧ (t.status.fault == false) = true) ∧
    legalWrite 0x01 0x40000000 = true :=
  ⟨⟨_, rfl⟩, witness_RunDecodeFrame.2.2.2.1, exists_of_answers (by decide +kernel), exists_of_answers (by decide +kernel),
    exists_of_answers (by decide +kernel), by decide +kernel⟩

/-- Operands with non-zero results; with a zero sum, difference, product and quotient; a division by zero of either kind;
an integer that is rounded; a zero and a non-zero operand beside an infinity. -/
theorem witness_ArithmeticIsCorrectlyRounded :
    let x := finValue false 3 (-1)
    let y := finValue true 1 0
    let z := finValue false 0 (-149)
    x + y ≠ 0 ∧ x - y ≠ 0 ∧ x * y ≠ 0 ∧ x / y ≠ 0 ∧ x + finValue true 6 (-2) = 0 ∧ x - x = 0 ∧ x * z = 0 ∧
    (z = 0 ∧ y ≠ 0) ∧ (x ≠ 0 ∧ z = 0) ∧ (16777217 : Nat) ≠ 0 ∧ (0 : Nat) = 0 ∧ (3 : Nat) ≠ 0 := by
  norm_num [finValue]

/-- Patterns of each class at the ends of its range: the infinities, the NaNs, the zeros and subnormal numbers, the
normal numbers. -/
theorem witness_NumPatternsAndValues :
    let exponent := fun w : Word => w.toNat / 2 ^ 23 % 2 ^ 8
    let fraction := fun w : Word => w.toNat % 2 ^ 23
    (exponent 0x7F800000 = 255 ∧ fraction 0x7F800000 = 0) ∧ (exponent 0xFF800000 = 255 ∧ fraction 0xFF800000 = 0) ∧
    (exponent 0x7F800001 = 255 ∧ fraction 0x7F800001 ≠ 0) ∧ (exponent 0xFFFFFFFF = 255 ∧ fraction 0xFFFFFFFF ≠ 0) ∧
    exponent 0x80000000 = 0 ∧ exponent 0x007FFFFF = 0 ∧
    (0 < exponent 0x00800000 ∧ exponent 0x00800000 < 255) ∧ (0 < exponent 0xFF7FFFFF ∧ exponent 0xFF7FFFFF < 255) := by
  decide +kernel

end Sys2Proof.Tests
end

section
/-! PROOFS. 00_scope.md R3: what one step does with the next host call. -/

namespace Sys2Proof.Machine

/-- Without a pending host call the core does nothing (R310). -/
theorem step_of_no_call {s : State} (h : s.calls = []) : step s = .next s := by
  simp only [step, h]

/-- A host call that decodes is executed and retired (R3, R130). -/
theorem step_of_decode {s : State} {call : HostCall} {later : List HostCall} {i : Instr} {extra : List Word}
    (hc : s.calls = call :: later) (hd : decode call.words = .ok (i, extra)) : step s = retire (exec i s) := by
  simp only [step, hc, hd]

/-- Settles O3: `step` on a decoded call is `retire` of `exec`, read off for each outcome. -/
theorem stepRunsTheDecodedCommand : Obligations.StepRunsTheDecodedCommand := by
  refine ⟨fun s h => step_of_no_call h, fun s call later i extra hc hd => ?_⟩
  rw [step_of_decode hc hd]
  cases exec i s <;> rfl

end Sys2Proof.Machine
end

section
/-! PROOFS. 20_memory.md R75: every command answers, because its guards keep each window read inside the window. -/

namespace Sys2Proof.Machine

/-! ### The shared entries pass an answer on -/

theorem systemCommand_answers {s : State} {body : Result} (h : ∃ t, body = .next t) :
    ∃ t, systemCommand s body = .next t := by
  unfold systemCommand
  split
  · exact ⟨_, rfl⟩
  · exact h

theorem plainCommand_answers {s : State} {body : State → Result} (h : ∃ t, body (clearCounts s) = .next t) :
    ∃ t, plainCommand s body = .next t := by
  unfold plainCommand
  split
  · exact ⟨_, rfl⟩
  · exact h

theorem windowCommand_answers {s : State} {n : Word} {body : Window → State → Result}
    (h : ∃ t, body (presentedWindow s) (clearCounts s) = .next t) : ∃ t, windowCommand n s body = .next t := by
  unfold windowCommand
  split
  · exact ⟨_, rfl⟩
  · split
    · exact ⟨_, rfl⟩
    · exact h

theorem configured_answers {s : State} {body : Result} (h : ∃ t, body = .next t) :
    ∃ t, configured s body = .next t := by
  unfold configured
  split
  · exact h
  · exact ⟨_, rfl⟩

theorem withRead_answers {α : Type} {read : Option α} {body : α → State} (h : ∃ a, read = some a) :
    ∃ t, withRead read body = .next t := by
  obtain ⟨a, rfl⟩ := h
  exact ⟨body a, rfl⟩

/-! ### A burst that the scan finds lies inside the window with its whole frame -/

/-- Steps 6 and 7 accept a candidate at the offset they are given. -/
theorem testRefined_accept {spc : Nat} {ratio spread : Fp32} {w : Window} {i k : Nat} {ref : Word}
    (h : testRefined spc ratio spread w i = some (.accept k ref)) : k = i := by
  simp only [testRefined, Option.bind_eq_bind, Option.bind_eq_some_iff, Option.pure_def] at h
  obtain ⟨avg, -, loud, -, h⟩ := h
  cases loud with
  | true => simp at h
  | false =>
    simp only [Bool.false_eq_true, if_false, Option.bind_eq_some_iff] at h
    obtain ⟨outside, -, h⟩ := h
    cases outside with
    | true => simp at h
    | false =>
      simp only [Bool.false_eq_true, if_false, Option.some.injEq, DetResult.accept.injEq] at h
      exact h.1.symm

/-- An accepted candidate was refined to the offset of its burst (R165). -/
theorem testCandidate_accept {spc : Nat} {ratio spread : Fp32} {w : Window} {j i : Nat} {ref : Word}
    (h : testCandidate spc ratio spread w j = some (.accept i ref)) : refine spc w spc j = some i := by
  simp only [testCandidate, Option.bind_eq_bind, Option.bind_eq_some_iff, Option.pure_def] at h
  obtain ⟨level, -, here, -, h⟩ := h
  split at h
  · simp at h
  obtain ⟨next, -, h⟩ := Option.bind_eq_some_iff.mp h
  split at h
  · simp at h
  obtain ⟨missing, -, h⟩ := Option.bind_eq_some_iff.mp h
  split at h
  · simp at h
  obtain ⟨k, hk, h⟩ := Option.bind_eq_some_iff.mp h
  rw [testRefined_accept h]
  exact hk

/-- The detector moves an accepted candidate by at most `SPC` (R165). -/
theorem detTest_accept_le {s : State} {w : Window} {j i : Nat} {ref : Word}
    (h : detTest s w j = some (.accept i ref)) : i ≤ j + s.config.spc := by
  unfold detTest at h
  split at h
  · simp at h
  · exact (refine_spec (testCandidate_accept h)).2.1

/-- The worst-case frame of a burst that the scan finds is inside the window: an eligible candidate has `241 SPC`
samples, and refinement uses up at most one `SPC` of them (R170, R171). -/
theorem scan_burst_fits {s : State} {w : Window} {i c : Nat} {ref : Word}
    (h : scan s w = some (.burst i ref c)) : i + 240 * s.config.spc ≤ w.length := by
  unfold scan at h
  simp only at h
  split at h
  · simp at h
  rename_i hlook
  obtain ⟨hit, hhit, h⟩ := Option.bind_eq_some_iff.mp h
  cases hit with
  | none => simp at h
  | some a =>
    simp only [Option.pure_def, Option.some.injEq, ScanResult.burst.injEq] at h
    obtain ⟨rfl, -, -⟩ := h
    obtain ⟨-, heligible, haccept, -⟩ := firstAccept_spec hhit
    have hmoved := detTest_accept_le haccept
    simp only [lookahead] at hlook heligible
    omega

/-- Decoding a burst whose worst-case frame is inside the window answers (R260). -/
theorem decodeBurst_answers {s : State} {w : Window} {i : Nat} (ref : Word) (h : 0 < s.config.spc)
    (hw : i + 240 * s.config.spc ≤ w.length) : ∃ v, decodeBurst w i ref s = some v := by
  have hconfig : (setBurst i ref (timestamp i s)).config = s.config := by
    rw [timestamp_frame]
    rfl
  obtain ⟨t, ht⟩ := sliceFrame_answers (w := w) (i := i) (ref := ref) (s := setBurst i ref (timestamp i s))
    (by rwa [hconfig]) (by rwa [hconfig])
  have htconfig : t.config = s.config := by
    rw [sliceFrame_frame ht]
    exact hconfig
  obtain ⟨hit, hhit⟩ := fruit_answers (s := t) (by rwa [htconfig]) w i t.kind
  exact ⟨judgeFrame hit t, by simp [decodeBurst, ht, hhit]⟩

/-! ### Each command answers -/

theorem execCsrrd_answers (csr : Byte) (s : State) : ∃ t, execCsrrd csr s = .next t := by
  unfold execCsrrd
  split <;> exact ⟨_, rfl⟩

theorem execCsrwr_answers (csr : Byte) (data : Word) (s : State) : ∃ t, execCsrwr csr data s = .next t :=
  systemCommand_answers (by split <;> exact ⟨_, rfl⟩)

theorem execAnchor_answers (secs : DWord) (frac : Word) (idx : DWord) (s : State) :
    ∃ t, execAnchor secs frac idx s = .next t :=
  systemCommand_answers (by split <;> exact ⟨_, rfl⟩)

theorem execCrcCheck_answers (length : Byte) (s : State) : ∃ t, execCrcCheck length s = .next t :=
  plainCommand_answers (by split <;> exact ⟨_, rfl⟩)

theorem execSliceBit_answers (e0 e1 ref : Word) (s : State) : ∃ t, execSliceBit e0 e1 ref s = .next t :=
  plainCommand_answers ⟨_, rfl⟩

theorem execClsKind_answers (hdr : BitVec 5) (s : State) : ∃ t, execClsKind hdr s = .next t :=
  plainCommand_answers ⟨_, rfl⟩

theorem execValidate_answers (s : State) : ∃ t, execValidate s = .next t :=
  plainCommand_answers ⟨_, rfl⟩

theorem execNextcomb_answers (x : Word) (s : State) : ∃ t, execNextcomb x s = .next t :=
  plainCommand_answers (by split <;> exact ⟨_, rfl⟩)

theorem execCorrect_answers (s : State) : ∃ t, execCorrect s = .next t :=
  plainCommand_answers (by split <;> exact ⟨_, rfl⟩)

section
variable {s : State} (h : 0 < s.config.spc)
include h

theorem execDetTest_answers (j n : Word) : ∃ t, execDetTest j n s = .next t :=
  windowCommand_answers (configured_answers (withRead_answers (detTest_answers (s := clearCounts s) h _ _)))

theorem execRunDetect_answers (n : Word) : ∃ t, execRunDetect n s = .next t :=
  windowCommand_answers (configured_answers (withRead_answers (scan_answers (s := clearCounts s) h _)))

theorem execSliceFrame_answers (n : Word) : ∃ t, execSliceFrame n s = .next t := by
  refine windowCommand_answers ?_
  split
  · exact ⟨_, rfl⟩
  · rename_i hlen
    exact withRead_answers (sliceFrame_answers (s := clearCounts s) h (Nat.not_lt.mp hlen))

theorem execClsFruit_answers (n : Word) : ∃ t, execClsFruit n s = .next t := by
  refine windowCommand_answers (configured_answers ?_)
  split
  · exact ⟨_, rfl⟩
  · exact withRead_answers (fruit_answers (s := clearCounts s) h _ _ _)

theorem execRunDecode_answers (n : Word) : ∃ t, execRunDecode n s = .next t := by
  refine windowCommand_answers (configured_answers ?_)
  obtain ⟨r, hr⟩ := scan_answers (s := clearCounts s) h (presentedWindow s)
  rw [hr]
  cases r with
  | insufficient => exact ⟨_, rfl⟩
  | noBurst c => exact ⟨_, rfl⟩
  | burst i ref c => exact withRead_answers (decodeBurst_answers ref h (scan_burst_fits hr))

end

/-- Settles O47: each command's entry and guards pass on an answer, and the window reads behind the guards are defined. -/
theorem everyCommandAnswers : Obligations.EveryCommandAnswers := by
  intro i s hwf
  have h : 0 < s.config.spc := by
    simp only [Config.wf, Bool.and_eq_true, decide_eq_true_eq] at hwf
    exact hwf.1
  cases i with
  | reset => exact ⟨_, rfl⟩
  | csrrd csr => exact execCsrrd_answers csr s
  | csrwr csr data => exact execCsrwr_answers csr data s
  | anchor secs frac idx => exact execAnchor_answers secs frac idx s
  | crcCheck length => exact execCrcCheck_answers length s
  | detTest j n => exact execDetTest_answers h j n
  | runDetect n => exact execRunDetect_answers h n
  | sliceBit e0 e1 ref => exact execSliceBit_answers e0 e1 ref s
  | sliceFrame n => exact execSliceFrame_answers h n
  | clsKind hdr => exact execClsKind_answers hdr s
  | clsFruit n => exact execClsFruit_answers h n
  | validate => exact execValidate_answers s
  | nextcomb x => exact execNextcomb_answers x s
  | correct => exact execCorrect_answers s
  | runDecode n => exact execRunDecode_answers h n

end Sys2Proof.Machine
end

section
/-! PROOFS. 00_scope.md R8: the rational value of a finite number, and the comparisons. -/

namespace Sys2Proof.Machine

/-! ### Signs -/

/-- The factor that a sign bit stands for. -/
def signFactor (neg : Bool) : ℚ := if neg then -1 else 1

/-- The value of a finite number is sign times magnitude. -/
theorem finValue_eq (neg : Bool) (m : Nat) (e : Int) : finValue neg m e = signFactor neg * m * 2 ^ e := rfl

theorem signFactor_not (neg : Bool) : signFactor (!neg) = -signFactor neg := by
  cases neg <;> simp [signFactor]

theorem signFactor_xor (a b : Bool) : signFactor (a ^^ b) = signFactor a * signFactor b := by
  cases a <;> cases b <;> simp [signFactor]

theorem signFactor_inv (neg : Bool) : (signFactor neg)⁻¹ = signFactor neg := by
  cases neg <;> norm_num [signFactor]

@[simp] theorem abs_signFactor (neg : Bool) : |signFactor neg| = 1 := by
  cases neg <;> simp [signFactor]

theorem signFactor_ne_zero (neg : Bool) : signFactor neg ≠ 0 := by
  cases neg <;> simp [signFactor]

/-- The sign bit of a positive magnitude says whether the number is negative. -/
theorem signFactor_mul_neg_iff (neg : Bool) {a : ℚ} (ha : 0 < a) : neg = true ↔ signFactor neg * a < 0 := by
  cases neg <;> simp [signFactor, ha, ha.le]

/-- An integer is the sign of the operations times its magnitude. -/
theorem signFactor_mul_natAbs (x : Int) : signFactor (decide (x < 0)) * (x.natAbs : ℚ) = x := by
  rw [Nat.cast_natAbs]
  by_cases h : x < 0
  · simp [signFactor, h, abs_of_neg h]
  · simp [signFactor, h, abs_of_nonneg (not_lt.mp h)]

/-- A finite number has the value zero exactly when its significand is zero. -/
theorem finValue_eq_zero_iff (neg : Bool) (m : Nat) (e : Int) : finValue neg m e = 0 ↔ m = 0 := by
  have h2 : (2 : ℚ) ^ e ≠ 0 := by positivity
  simp [finValue_eq, signFactor_ne_zero, h2]

theorem finValue_not (neg : Bool) (m : Nat) (e : Int) : finValue (!neg) m e = -finValue neg m e := by
  simp [finValue_eq, signFactor_not]

/-! ### Two finite numbers at their common exponent -/

theorem signedInt_cast (neg : Bool) (m : Nat) : (signedInt neg m : ℚ) = signFactor neg * m := by
  cases neg <;> simp [signedInt, signFactor]

/-- Left shift by a non-negative integer multiplies by that power of two. -/
theorem cast_shiftLeft_toNat (m : Nat) {j : Int} (h : 0 ≤ j) : ((m <<< j.toNat : Nat) : ℚ) = m * 2 ^ j := by
  obtain ⟨j, rfl⟩ := Int.eq_ofNat_of_zero_le h
  simp [Nat.shiftLeft_eq]

/-- The scaled integer is the value in units of `2^k`. -/
theorem scaledInt_mul_zpow (neg : Bool) (m : Nat) {e k : Int} (h : k ≤ e) :
    (scaledInt neg m e k : ℚ) * 2 ^ k = finValue neg m e := by
  have hpow : (2 : ℚ) ^ (e - k) * 2 ^ k = 2 ^ e := by rw [← zpow_add₀ two_ne_zero, sub_add_cancel]
  rw [scaledInt, signedInt_cast, cast_shiftLeft_toNat m (sub_nonneg.mpr h), finValue_eq, ← hpow]
  ring

/-- `lt` on finite numbers is the order of their values. -/
theorem Fp32.lt_fin_iff (n n' : Bool) (m m' : Nat) (e e' : Int) :
    (Fp32.fin n m e).lt (.fin n' m' e') = true ↔ finValue n m e < finValue n' m' e' := by
  have hunit : (0 : ℚ) < 2 ^ min e e' := by positivity
  rw [← scaledInt_mul_zpow n m (min_le_left e e'), ← scaledInt_mul_zpow n' m' (min_le_right e e'),
    mul_lt_mul_iff_of_pos_right hunit, Int.cast_lt, Fp32.lt, decide_eq_true_iff]

/-- `ge` on finite numbers is the order of their values. -/
theorem Fp32.ge_fin_iff (n n' : Bool) (m m' : Nat) (e e' : Int) :
    (Fp32.fin n m e).ge (.fin n' m' e') = true ↔ finValue n' m' e' ≤ finValue n m e := by
  rw [← not_lt, ← Fp32.lt_fin_iff n n' m m' e e']
  simp [Fp32.ge, Fp32.isNan]

/-! ### Comparisons with a NaN -/

theorem Fp32.lt_nan_left (w : Word) (a : Fp32) : (Fp32.nan w).lt a = false := by
  cases a <;> rfl

theorem Fp32.lt_nan_right (w : Word) (a : Fp32) : a.lt (.nan w) = false := by
  cases a <;> rfl

/-- Settles O59: finite operands by their values, the infinities by the sign bits, a NaN by the definitions. -/
theorem comparisonsOrderTheValues : Obligations.ComparisonsOrderTheValues := by
  refine ⟨fun n n' m m' e e' => ⟨Fp32.lt_fin_iff .., Fp32.lt_fin_iff .., Fp32.ge_fin_iff ..⟩, ?_, fun w a => ?_⟩
  · intro neg neg' n m e
    simp [Fp32.gt, Fp32.ge, Fp32.lt, Fp32.isNan, and_comm]
  · exact ⟨Fp32.lt_nan_left w a, Fp32.lt_nan_right w a, Fp32.lt_nan_right w a, Fp32.lt_nan_left w a,
      by simp [Fp32.ge, Fp32.isNan], by simp [Fp32.ge, Fp32.isNan]⟩

end Sys2Proof.Machine
end

section
/-! PROOFS. 00_scope.md R8: every operation rounds its exact result once, to nearest, ties to even. -/

namespace Sys2Proof.Machine

/-! ### Rounding a quotient to a natural number -/

/-- `m` is a natural number nearest to `t`, the even one on a tie. -/
structure NearestEven (t : ℚ) (m : Nat) : Prop where
  dist : |t - m| ≤ 1 / 2
  tie : |t - m| = 1 / 2 → m % 2 = 0

/-- A numerator at most half a divisor away from `m` divisors, with `m` even on a tie, is nearest to `m` of them. -/
theorem nearestEven_div {num den m r : Nat} (hden : 0 < den) (hdist : |(num : ℚ) - m * den| = r) (hle : 2 * r ≤ den)
    (htie : 2 * r = den → m % 2 = 0) : NearestEven ((num : ℚ) / den) m := by
  have hpos : (0 : ℚ) < den := by exact_mod_cast hden
  have habs : |(num : ℚ) / den - m| = r / den := by
    rw [← hdist, ← abs_of_pos hpos, ← abs_div, abs_of_pos hpos, sub_div, mul_div_cancel_right₀ _ hpos.ne']
  constructor
  · rw [habs, div_le_div_iff₀ hpos two_pos, mul_comm, one_mul]
    exact_mod_cast hle
  · rw [habs, div_eq_div_iff hpos.ne' two_ne_zero, mul_comm, one_mul]
    exact fun h => htie (by exact_mod_cast h)

/-- `roundHalfEven` rounds the quotient: up past half a divisor, and at half from an odd number. -/
theorem nearestEven_roundHalfEven (num : Nat) {den : Nat} (hden : 0 < den) :
    NearestEven ((num : ℚ) / den) (roundHalfEven num den) := by
  have hsplit : (num : ℚ) = (num / den : Nat) * den + (num % den : Nat) := by
    exact_mod_cast (Nat.div_add_mod' num den).symm
  have hrem : num % den < den := Nat.mod_lt _ hden
  simp only [roundHalfEven]
  split
  · refine nearestEven_div (r := den - num % den) hden ?_ (by omega) (by omega)
    rw [hsplit, abs_sub_comm, Nat.cast_sub hrem.le, ← abs_of_nonneg (sub_nonneg.mpr (Nat.cast_le.mpr hrem.le))]
    congr 1
    push_cast
    ring
  · refine nearestEven_div (r := num % den) hden ?_ (by omega) (by omega)
    rw [hsplit, add_sub_cancel_left, Nat.abs_cast]

/-- A natural number above `t` stays at or above its rounding. -/
theorem NearestEven.le_of_le {t : ℚ} {m b : Nat} (h : NearestEven t m) (hb : t ≤ b) : m ≤ b := by
  have hdist := (abs_le.mp h.dist).1
  have : (m : ℚ) < b + 1 := by linarith
  exact Nat.lt_add_one_iff.mp (by exact_mod_cast this)

/-- A natural number below `t` stays at or below its rounding. -/
theorem NearestEven.le_of_ge {t : ℚ} {m a : Nat} (h : NearestEven t m) (ha : (a : ℚ) ≤ t) : a ≤ m := by
  have hdist := (abs_le.mp h.dist).2
  have : (a : ℚ) < m + 1 := by linarith
  exact Nat.lt_add_one_iff.mp (by exact_mod_cast this)

/-! ### The leading exponent -/

/-- The quotient with the numerator or the denominator shifted, whichever the sign of `j` says, is scaled by `2^j`. -/
theorem shiftLeft_div_shiftLeft (n d : Nat) (j : Int) :
    ((n <<< j.toNat : Nat) : ℚ) / (d <<< (-j).toNat : Nat) = (n : ℚ) / d * 2 ^ j := by
  rcases le_total 0 j with h | h
  · rw [cast_shiftLeft_toNat n h, Int.toNat_of_nonpos (by omega), Nat.shiftLeft_zero]
    ring
  · rw [cast_shiftLeft_toNat d (neg_nonneg.mpr h), Int.toNat_of_nonpos h, Nat.shiftLeft_zero, zpow_neg, div_mul_eq_div_div,
      div_inv_eq_mul]

/-- A natural number lies between its leading power of two and the next. -/
theorem zpow_log2_bounds {n : Nat} (hn : n ≠ 0) :
    (2 : ℚ) ^ (n.log2 : Int) ≤ n ∧ (n : ℚ) < 2 ^ ((n.log2 : Int) + 1) :=
  ⟨by exact_mod_cast Nat.log2_self_le hn, by exact_mod_cast Nat.lt_log2_self (n := n)⟩

/-- The comparison of `floorLog2` decides whether `2^k` is at most the quotient. -/
theorem shiftLeft_le_shiftLeft_iff {n d : Nat} (hn : n ≠ 0) (hd : d ≠ 0) (k : Int) :
    d <<< k.toNat ≤ n <<< (-k).toNat ↔ (2 : ℚ) ^ k ≤ (n : ℚ) / d := by
  have hn' : (0 : ℚ) < n := by exact_mod_cast Nat.pos_of_ne_zero hn
  have hd' : (0 : ℚ) < d := by exact_mod_cast Nat.pos_of_ne_zero hd
  have hshift : (0 : ℚ) < (n <<< (-k).toNat : Nat) := by
    rw [Nat.shiftLeft_eq]
    positivity
  calc d <<< k.toNat ≤ n <<< (-k).toNat
      ↔ ((d <<< k.toNat : Nat) : ℚ) / (n <<< (-k).toNat : Nat) ≤ 1 := by rw [div_le_one hshift, Nat.cast_le]
    _ ↔ (d : ℚ) / n * 2 ^ k ≤ 1 := by rw [shiftLeft_div_shiftLeft]
    _ ↔ (2 : ℚ) ^ k ≤ n / d := by rw [div_mul_eq_mul_div, div_le_one hn', le_div_iff₀ hd', mul_comm]

/-- `floorLog2` is the exponent of the leading power of two of the quotient. -/
theorem floorLog2_bounds {n d : Nat} (hn : n ≠ 0) (hd : d ≠ 0) :
    (2 : ℚ) ^ floorLog2 n d ≤ (n : ℚ) / d ∧ (n : ℚ) / d < 2 ^ (floorLog2 n d + 1) := by
  have hd' : (0 : ℚ) < d := by exact_mod_cast Nat.pos_of_ne_zero hd
  obtain ⟨hnlow, hnhigh⟩ := zpow_log2_bounds hn
  obtain ⟨hdlow, hdhigh⟩ := zpow_log2_bounds hd
  have hlow : (2 : ℚ) ^ ((n.log2 : Int) - d.log2 - 1) ≤ n / d := by
    rw [sub_sub, zpow_sub₀ two_ne_zero]
    exact div_le_div₀ (by positivity) hnlow hd' hdhigh.le
  have hhigh : (n : ℚ) / d < 2 ^ ((n.log2 : Int) - d.log2 + 1) := by
    rw [sub_add_eq_add_sub, zpow_sub₀ two_ne_zero]
    exact div_lt_div₀ hnhigh hdlow (by positivity) (by positivity)
  unfold floorLog2
  simp only [shiftLeft_le_shiftLeft_iff hn hd]
  split
  · rename_i hle
    exact ⟨hle, hhigh⟩
  · rename_i hgt
    exact ⟨hlow, by simpa using hgt⟩

/-! ### Packing a rounded significand -/

/-- How far a number is from a finite number of its sign, in units of the exponent. -/
theorem abs_sub_finValue (neg : Bool) (t : ℚ) (m : Nat) (q : Int) :
    |signFactor neg * (t * 2 ^ q) - finValue neg m q| = |t - m| * 2 ^ q := by
  have : signFactor neg * (t * 2 ^ q) - finValue neg m q = signFactor neg * ((t - m) * 2 ^ q) := by
    rw [finValue_eq]
    ring
  rw [this, abs_mul, abs_signFactor, one_mul, abs_mul, abs_of_pos (a := (2 : ℚ) ^ q) (by positivity)]

theorem abs_finValue (neg : Bool) (m : Nat) (q : Int) : |finValue neg m q| = m * 2 ^ q := by
  rw [finValue_eq, mul_assoc, abs_mul, abs_signFactor, one_mul, abs_of_nonneg (by positivity)]

/-- A magnitude in the overflow range rounds to the infinity of its sign. -/
theorem rounds_inf (neg : Bool) {a : ℚ} (h : ((2 : ℚ) ^ 25 - 1) * 2 ^ 103 ≤ a) :
    Rounds (signFactor neg * a) (.inf neg) := by
  have ha : 0 < a := lt_of_lt_of_le (by norm_num) h
  refine ⟨?_, signFactor_mul_neg_iff neg ha⟩
  rwa [abs_mul, abs_signFactor, one_mul, abs_of_pos ha]

/-- A rounded significand of at most 24 bits, at an exponent in range, is the rounding. -/
theorem rounds_fin {neg : Bool} {t : ℚ} {m : Nat} {q : Int} (ht : 0 < t) (hm : NearestEven t m) (hlt : m < 2 ^ 24)
    (hmin : -149 ≤ q) (hmax : q ≤ 104) (hnormal : q = -149 ∨ 2 ^ 23 ≤ t) :
    Rounds (signFactor neg * (t * 2 ^ q)) (.fin neg m q) := by
  have hunit : (0 : ℚ) < 2 ^ q := by positivity
  refine ⟨hlt, hmin, hmax, hnormal.imp_right fun h => hm.le_of_ge (by exact_mod_cast h),
    signFactor_mul_neg_iff neg (by positivity), ?_, ?_, ?_⟩
  · rw [abs_sub_finValue]
    linarith [mul_le_mul_of_nonneg_right hm.dist hunit.le]
  · rw [abs_sub_finValue]
    intro htie
    exact hm.tie (mul_right_cancel₀ hunit.ne' (by linarith))
  · rintro rfl hq
    have h23 : 2 ^ 23 ≤ t := hnormal.resolve_left hq.ne'
    rw [abs_finValue, abs_mul, abs_signFactor, one_mul, abs_of_pos (by positivity)]
    push_cast
    linarith [mul_le_mul_of_nonneg_right h23 hunit.le]

/-- A carry out of the 24 bits is the power of two one exponent higher. -/
theorem rounds_carry {neg : Bool} {t : ℚ} {q : Int} (ht : 0 < t) (hm : NearestEven t (2 ^ 24))
    (hmin : -149 ≤ q) (hmax : q ≤ 103) :
    Rounds (signFactor neg * (t * 2 ^ q)) (.fin neg (2 ^ 23) (q + 1)) := by
  have hunit : (0 : ℚ) < 2 ^ q := by positivity
  have hnext : (2 : ℚ) ^ (q + 1) = 2 * 2 ^ q := by rw [zpow_add_one₀ two_ne_zero, mul_comm]
  have hvalue : finValue neg (2 ^ 23) (q + 1) = finValue neg (2 ^ 24) q := by
    rw [finValue_eq, finValue_eq, hnext]
    push_cast
    ring
  have hdist := mul_le_mul_of_nonneg_right hm.dist hunit.le
  refine ⟨by norm_num, by omega, by omega, .inr le_rfl, signFactor_mul_neg_iff neg (by positivity), ?_,
    fun _ => by norm_num, fun _ _ => ?_⟩
  · rw [hvalue, abs_sub_finValue, hnext]
    linarith
  · have habove := mul_le_mul_of_nonneg_right (neg_le_of_abs_le hm.dist) hunit.le
    rw [hvalue, abs_finValue, abs_mul, abs_signFactor, one_mul, abs_of_pos (by positivity), hnext]
    linarith

/-- `pack` turns a rounded significand into the rounding of the number (R8; overflow as log 8 reads it). -/
theorem Fp32.pack_rounds {neg : Bool} {t : ℚ} {m : Nat} {q : Int} (ht : 0 < t) (hm : NearestEven t m) (hlt : t < 2 ^ 24)
    (hmin : -149 ≤ q) (hnormal : q = -149 ∨ 2 ^ 23 ≤ t) :
    Rounds (signFactor neg * (t * 2 ^ q)) (Fp32.pack neg m q) := by
  unfold Fp32.pack
  by_cases hcarry : m = 2 ^ 24
  · subst hcarry
    rw [if_pos rfl]
    by_cases hq : 103 < q
    · rw [if_pos hq]
      have hnear : (2 : ℚ) ^ 24 - 1 / 2 ≤ t := by
        have := (abs_le.mp hm.dist).1
        push_cast at this
        linarith
      have hpow : (2 : ℚ) ^ (104 : Int) ≤ 2 ^ q := zpow_le_zpow_right₀ one_le_two (by omega)
      refine rounds_inf neg (le_trans ?_ (mul_le_mul hnear hpow (by positivity) ht.le))
      norm_num
    · rw [if_neg hq]
      exact rounds_carry ht hm hmin (not_lt.mp hq)
  · rw [if_neg hcarry]
    have hm24 : m < 2 ^ 24 := lt_of_le_of_ne (hm.le_of_le (by exact_mod_cast hlt.le)) hcarry
    by_cases hq : 104 < q
    · rw [if_pos hq]
      have h23 : 2 ^ 23 ≤ t := hnormal.resolve_left (by omega)
      have hpow : (2 : ℚ) ^ (105 : Int) ≤ 2 ^ q := zpow_le_zpow_right₀ one_le_two (by omega)
      refine rounds_inf neg (le_trans ?_ (mul_le_mul h23 hpow (by positivity) ht.le))
      norm_num
    · rw [if_neg hq]
      exact rounds_fin ht hm hm24 hmin (not_lt.mp hq) hnormal

/-- `roundQuotient` rounds the exact number `(-1)^neg * (n / d) * 2^e`. -/
theorem Fp32.roundQuotient_rounds (neg : Bool) {n d : Nat} (hn : n ≠ 0) (hd : d ≠ 0) (e : Int) :
    Rounds (signFactor neg * ((n : ℚ) / d * 2 ^ e)) (Fp32.roundQuotient neg n d e) := by
  have hn' : (0 : ℚ) < n := by exact_mod_cast Nat.pos_of_ne_zero hn
  have hd' : (0 : ℚ) < d := by exact_mod_cast Nat.pos_of_ne_zero hd
  obtain ⟨hlow, hhigh⟩ := floorLog2_bounds hn hd
  unfold Fp32.roundQuotient
  simp only [if_neg hn]
  generalize hq : max (-149) (e + floorLog2 n d - 23) = q
  have hscale : ∀ x : ℚ, x * 2 ^ (e - q) * 2 ^ q = x * 2 ^ e := fun x => by
    rw [mul_assoc, ← zpow_add₀ two_ne_zero, sub_add_cancel]
  have hm : NearestEven ((n : ℚ) / d * 2 ^ (e - q))
      (roundHalfEven (n <<< (e - q).toNat) (d <<< (q - e).toNat)) := by
    rw [← shiftLeft_div_shiftLeft, neg_sub]
    exact nearestEven_roundHalfEven _ (by rw [Nat.shiftLeft_eq]; positivity)
  rw [← hscale]
  refine Fp32.pack_rounds (by positivity) hm ?_ (by omega) ?_
  · calc (n : ℚ) / d * 2 ^ (e - q) < 2 ^ (floorLog2 n d + 1) * 2 ^ (e - q) :=
          mul_lt_mul_of_pos_right hhigh (by positivity)
      _ = 2 ^ (floorLog2 n d + 1 + (e - q)) := (zpow_add₀ two_ne_zero _ _).symm
      _ ≤ 2 ^ (24 : Int) := zpow_le_zpow_right₀ one_le_two (by omega)
      _ = 2 ^ 24 := by norm_num
  · by_cases hmin : q = -149
    · exact .inl hmin
    · refine .inr ?_
      calc (2 : ℚ) ^ 23 = 2 ^ (23 : Int) := by norm_num
        _ ≤ 2 ^ (floorLog2 n d + (e - q)) := zpow_le_zpow_right₀ one_le_two (by omega)
        _ = 2 ^ floorLog2 n d * 2 ^ (e - q) := zpow_add₀ two_ne_zero _ _
        _ ≤ n / d * 2 ^ (e - q) := mul_le_mul_of_nonneg_right hlow (by positivity)

@[simp] theorem Fp32.roundQuotient_zero (neg : Bool) (d : Nat) (e : Int) :
    Fp32.roundQuotient neg 0 d e = .fin neg 0 (-149) := by
  simp [Fp32.roundQuotient]

/-! ### The operations on finite operands -/

/-- A zero of the format, of either sign. -/
def Fp32.IsZero (r : Fp32) : Prop := ∃ sign, r = .fin sign 0 (-149)

section
variable (n n' : Bool) (m m' : Nat) (e e' : Int)

/-- The integer that `sum` rounds is the sum of the values in units of the smaller exponent. -/
theorem scaledInt_add_scaledInt_mul_zpow :
    ((scaledInt n m e (min e e') + scaledInt n' m' e' (min e e') : Int) : ℚ) * 2 ^ min e e' =
      finValue n m e + finValue n' m' e' := by
  rw [Int.cast_add, add_mul, scaledInt_mul_zpow n m (min_le_left e e'), scaledInt_mul_zpow n' m' (min_le_right e e')]

/-- `sum` rounds the sum of two finite numbers, and gives a zero when it is zero. -/
theorem Fp32.sum_fin (undef : Fp32) :
    (finValue n m e + finValue n' m' e' ≠ 0 →
      Rounds (finValue n m e + finValue n' m' e') (Fp32.sum undef (.fin n m e) (.fin n' m' e'))) ∧
    (finValue n m e + finValue n' m' e' = 0 → Fp32.IsZero (Fp32.sum undef (.fin n m e) (.fin n' m' e'))) := by
  have hunit : (2 : ℚ) ^ min e e' ≠ 0 := by positivity
  rw [← scaledInt_add_scaledInt_mul_zpow n n' m m' e e']
  simp only [Fp32.sum]
  generalize scaledInt n m e (min e e') + scaledInt n' m' e' (min e e') = x
  by_cases hx : x = 0
  · simp [hx, Fp32.IsZero]
  · have hround := Fp32.roundQuotient_rounds (decide (x < 0)) (Int.natAbs_ne_zero.mpr hx) one_ne_zero (min e e')
    rw [Nat.cast_one, div_one, ← mul_assoc, signFactor_mul_natAbs] at hround
    simp [hx, hunit, hround]

theorem Fp32.add_fin :
    (finValue n m e + finValue n' m' e' ≠ 0 →
      Rounds (finValue n m e + finValue n' m' e') ((Fp32.fin n m e).add (.fin n' m' e'))) ∧
    (finValue n m e + finValue n' m' e' = 0 → Fp32.IsZero ((Fp32.fin n m e).add (.fin n' m' e'))) :=
  Fp32.sum_fin ..

/-- `sub` is `sum` with the second operand negated. -/
theorem Fp32.sub_fin :
    (finValue n m e - finValue n' m' e' ≠ 0 →
      Rounds (finValue n m e - finValue n' m' e') ((Fp32.fin n m e).sub (.fin n' m' e'))) ∧
    (finValue n m e - finValue n' m' e' = 0 → Fp32.IsZero ((Fp32.fin n m e).sub (.fin n' m' e'))) := by
  rw [sub_eq_add_neg, ← finValue_not]
  exact Fp32.sum_fin ..

theorem finValue_mul_finValue :
    finValue n m e * finValue n' m' e' = signFactor (n ^^ n') * (((m * m' : Nat) : ℚ) / (1 : Nat) * 2 ^ (e + e')) := by
  rw [finValue_eq, finValue_eq, signFactor_xor, zpow_add₀ two_ne_zero]
  push_cast
  ring

theorem Fp32.mul_fin :
    (finValue n m e * finValue n' m' e' ≠ 0 →
      Rounds (finValue n m e * finValue n' m' e') ((Fp32.fin n m e).mul (.fin n' m' e'))) ∧
    (finValue n m e * finValue n' m' e' = 0 → Fp32.IsZero ((Fp32.fin n m e).mul (.fin n' m' e'))) := by
  simp only [Fp32.mul]
  constructor
  · intro h
    have hm : m * m' ≠ 0 := by simpa [finValue_eq_zero_iff] using h
    rw [finValue_mul_finValue]
    exact Fp32.roundQuotient_rounds _ hm one_ne_zero _
  · intro h
    have hm : m * m' = 0 := by simpa [finValue_eq_zero_iff] using h
    rw [hm, Fp32.roundQuotient_zero]
    exact ⟨_, rfl⟩

theorem finValue_div_finValue :
    finValue n m e / finValue n' m' e' = signFactor (n ^^ n') * ((m : ℚ) / m' * 2 ^ (e - e')) := by
  rw [finValue_eq, finValue_eq, signFactor_xor, zpow_sub₀ two_ne_zero, div_eq_mul_inv, mul_inv, mul_inv, signFactor_inv]
  ring

theorem Fp32.div_fin :
    (finValue n m e / finValue n' m' e' ≠ 0 →
      Rounds (finValue n m e / finValue n' m' e') ((Fp32.fin n m e).div (.fin n' m' e'))) ∧
    (finValue n m e = 0 → finValue n' m' e' ≠ 0 → Fp32.IsZero ((Fp32.fin n m e).div (.fin n' m' e'))) ∧
    (finValue n m e ≠ 0 → finValue n' m' e' = 0 → (Fp32.fin n m e).div (.fin n' m' e') = .inf (n ^^ n')) ∧
    (finValue n m e = 0 → finValue n' m' e' = 0 → ((Fp32.fin n m e).div (.fin n' m' e')).isNan = true) := by
  simp only [Fp32.div, ne_eq, finValue_eq_zero_iff]
  refine ⟨fun h => ?_, fun hm hm' => ?_, fun hm hm' => ?_, fun hm hm' => ?_⟩
  · obtain ⟨hm, hm'⟩ : m ≠ 0 ∧ m' ≠ 0 := by simpa [finValue_eq_zero_iff] using h
    rw [if_neg hm', finValue_div_finValue]
    exact Fp32.roundQuotient_rounds _ hm hm' _
  · rw [if_neg hm', hm, Fp32.roundQuotient_zero]
    exact ⟨_, rfl⟩
  · rw [if_pos hm', if_neg hm]
  · rw [if_pos hm', if_pos hm]
    rfl

end

/-- `ofNat` rounds a positive integer. -/
theorem Fp32.ofNat_rounds {n : Nat} (hn : n ≠ 0) : Rounds n (Fp32.ofNat n) := by
  have h := Fp32.roundQuotient_rounds false hn one_ne_zero 0
  rwa [signFactor, if_neg Bool.false_ne_true, one_mul, Nat.cast_one, div_one, zpow_zero, mul_one] at h

/-! ### The operations on a NaN -/

@[simp] theorem Fp32.isNan_freeNan (op : NumOp) (a b : Fp32) : (Fp32.freeNan op a b).isNan = true := rfl

/-- With a NaN operand `sum` gives the NaN it was handed. -/
theorem Fp32.sum_nan (undef a : Fp32) (w : Word) :
    Fp32.sum undef (.nan w) a = undef ∧ Fp32.sum undef a (.nan w) = undef := by
  cases a <;> exact ⟨rfl, rfl⟩

theorem Fp32.mul_nan (a : Fp32) (w : Word) :
    (Fp32.nan w).mul a = .freeNan .mul (.nan w) a ∧ a.mul (.nan w) = .freeNan .mul a (.nan w) := by
  cases a <;> exact ⟨rfl, rfl⟩

theorem Fp32.div_nan (a : Fp32) (w : Word) :
    (Fp32.nan w).div a = .freeNan .div (.nan w) a ∧ a.div (.nan w) = .freeNan .div a (.nan w) := by
  cases a <;> exact ⟨rfl, rfl⟩

/-- Settles O58: finite operands by `Fp32.roundQuotient_rounds`, which each operation reaches with its exact result; the
infinities and the NaNs by the arms of the definitions. -/
theorem arithmeticIsCorrectlyRounded : Obligations.ArithmeticIsCorrectlyRounded := by
  refine ⟨fun n n' m m' e e' => ?_, fun n hn => Fp32.ofNat_rounds hn, ⟨false, Fp32.roundQuotient_zero ..⟩, ?_,
    fun w a => ?_⟩
  · obtain ⟨hadd, hadd0⟩ := Fp32.add_fin n n' m m' e e'
    obtain ⟨hsub, hsub0⟩ := Fp32.sub_fin n n' m m' e e'
    obtain ⟨hmul, hmul0⟩ := Fp32.mul_fin n n' m m' e e'
    exact ⟨hadd, hadd0, hsub, hsub0, hmul, hmul0, Fp32.div_fin n n' m m' e e'⟩
  · intro n n' m e
    refine ⟨rfl, rfl, rfl, rfl, ?_, ?_, rfl, ?_, ?_, ?_, ?_, ?_, rfl, rfl⟩
    · intro hm
      simp [Fp32.mul, hm, Bool.xor_comm]
    · intro hm
      simp [Fp32.mul, hm]
    · simp [Fp32.div, Bool.xor_comm]
    · simp [Fp32.add, Fp32.sum]
    · simp [Fp32.add, Fp32.sum]
    · simp [Fp32.sub, Fp32.neg, Fp32.sum]
    · simp [Fp32.sub, Fp32.neg, Fp32.sum]
  · simp [Fp32.add, Fp32.sub, Fp32.neg, Fp32.sum_nan, Fp32.mul_nan, Fp32.div_nan]

end Sys2Proof.Machine
end

section
/-! PROOFS. 10_state.md R21 to R45: which registers each command may write, said once for all commands. -/

namespace Sys2Proof.Machine

/-- Everything a command may do to the registers, one constructor per command or group of commands. What is
written stands as an argument, with only what the flags and the invariant need to know of it. -/
inductive Effect (s : State) : Instr → State → Prop where
  /-- The refusal of the faulted state, and CSRRD unless it faults a running core: a response and nothing else. -/
  | responded (i : Instr) (r : Response) (hread : s.Running → ∃ csr, i = .csrrd csr) :
    Effect s i { s with response := some r }
  /-- A fault of a running core; a system command faults on illegal operands only. -/
  | faulted (i : Instr) (c : FaultCode) (hwf : i.opcode.number.toNat < 0x10 → i.wf = false) (hr : s.Running) :
    Effect s i (faultedBy c.byte s)
  | reset : Effect s .reset (respondOk { State.resetFor s.config with calls := s.calls })
  | ratioWritten (data : Word) (hlegal : Csr.threshRatio.legal data = true) (hr : s.Running) :
    Effect s (.csrwr 0x01 data) (respondOk (setCfgValid { s with threshRatio := data }))
  | csrWritten (r : Csr) (data : Word) (hratio : r ≠ .threshRatio) (hlegal : r.legal data = true) (hr : s.Running) :
    Effect s (.csrwr r.number data) (respondOk (r.store data s))
  | anchored (secs : DWord) (frac : Word) (idx : DWord) (hlegal : legalFraction frac = true) (hr : s.Running) :
    Effect s (.anchor secs frac idx)
      (respondOk (setAnchorValid { s with anchorSecs := secs, anchorFrac := frac, anchorIdx := idx }))
  | crcChecked (length : Byte) (syndrome : Word24) (hr : s.Running) :
    Effect s (.crcCheck length) (done .ok { clearCounts s with syndrome := syndrome })
  | candidateTested (j n : Word) (code : Code) (offset ref res0 : Word) (hcode : code ≠ .refusedFaulted)
    (hr : s.Running) :
    Effect s (.detTest j n)
      (done code { clearCounts s with burstOffset := offset, refLevel := ref, res0 := res0 })
  /-- A RUN command without a burst. -/
  | noBurst (i : Instr) (n : Word) (hrun : i = .runDetect n ∨ i = .runDecode n) (code : Code)
    (hcode : code = .insufficientLookahead ∨ code = .noBurst) (consumed : Word) (count : DWord) (hr : s.Running) :
    Effect s i (done code { clearCounts s with consumed := consumed, absCount := count })
  | burstDetected (n : Word) (offset ref consumed : Word) (count secs : DWord) (frac : Word)
    (htime : s.status.anchorValid = false → secs = 0 ∧ frac = 0) (hr : s.Running) :
    Effect s (.runDetect n) (done .burstFound { s with
      burstOffset := offset, refLevel := ref, consumed := consumed, produced := 1, absCount := count,
      tsSecs := secs, tsFrac := frac, status := { s.status with tsValid := s.status.anchorValid } })
  | bitSliced (e0 e1 ref res0 : Word) (hr : s.Running) :
    Effect s (.sliceBit e0 e1 ref) (done .ok { clearCounts s with res0 := res0 })
  | frameSliced (n : Word) (code : Code) (hcode : code ≠ .refusedFaulted) (fb : Vector Byte 14)
    (lcbPos : Vector (Fin 112) 24) (lcbTotal : Fin 113) (kind : FrameKind) (hr : s.Running) :
    Effect s (.sliceFrame n)
      (done code { clearCounts s with fb := fb, lcbPos := lcbPos, lcbTotal := lcbTotal, kind := kind })
  | kindClassified (hdr : BitVec 5) (res0 : Word) (hr : s.Running) :
    Effect s (.clsKind hdr) (done .ok { clearCounts s with res0 := res0 })
  | fruitTooShort (n : Word) (hr : s.Running) :
    Effect s (.clsFruit n) (done .insufficientLookahead (clearCounts s))
  | fruitScanned (n : Word) (code : Code) (fruited : Bool)
    (hcode : code = if fruited then .fruitedFrame else .notFruited) (res0 : Word) (hr : s.Running) :
    Effect s (.clsFruit n)
      (done code { clearCounts s with res0 := res0, status := { s.status with fruited := fruited } })
  | validated (code : Code) (hcode : code ≠ .refusedFaulted) (fb : Vector Byte 14) (syndrome : Word24)
    (hr : s.Running) :
    Effect s .validate (done code { clearCounts s with fb := fb, syndrome := syndrome })
  | combined (x res0 : Word) (hr : s.Running) :
    Effect s (.nextcomb x) (done .ok { clearCounts s with res0 := res0 })
  | corrected (code : Code) (hcode : code ≠ .refusedFaulted) (fb : Vector Byte 14) (syndrome : Word24)
    (hr : s.Running) :
    Effect s .correct (done code { clearCounts s with fb := fb, syndrome := syndrome })
  | burstDecoded (n : Word) (code : Code) (fruited : Bool)
    (hcode : if fruited then code = .fruitedFrame else code ∈ validatorCodes)
    (offset ref consumed produced : Word) (hproduced : produced = 0 ∨ produced = 1) (count secs : DWord) (frac : Word)
    (htime : s.status.anchorValid = false → secs = 0 ∧ frac = 0)
    (fb : Vector Byte 14) (lcbPos : Vector (Fin 112) 24) (lcbTotal : Fin 113) (kind : FrameKind) (syndrome : Word24)
    (hr : s.Running) :
    Effect s (.runDecode n) (done code { s with
      burstOffset := offset, refLevel := ref, consumed := consumed, produced := produced, absCount := count,
      tsSecs := secs, tsFrac := frac, fb := fb, lcbPos := lcbPos, lcbTotal := lcbTotal, kind := kind,
      syndrome := syndrome, status := { s.status with tsValid := s.status.anchorValid, fruited := fruited } })

/-! ### The CSR numbers -/

/-- Every register is found by its number (R21). -/
@[simp] theorem Csr.ofNumber_number (r : Csr) : Csr.ofNumber r.number = some r := by
  cases r with
  | fb n => revert n; decide +kernel
  | lcbPos n => revert n; decide +kernel
  | _ => rfl

theorem Csr.number_of_ofNumber {b : Byte} {r : Csr} (h : Csr.ofNumber b = some r) : r.number = b := by
  simpa using List.find?_some h

theorem Csr.number_injective {r r' : Csr} (h : r.number = r'.number) : r = r' := by
  simpa [h] using (Csr.ofNumber_number r).symm

/-! ### Every command has its effect -/

/-- A command that stops has one of the first two effects. -/
theorem Effect.of_stopped {s t : State} {i : Instr} {codes : List FaultCode}
    (hwf : s.Running → i.opcode.number.toNat < 0x10 → i.wf = false) (h : Stopped s t codes) : Effect s i t := by
  rcases h with ⟨hf, rfl⟩ | ⟨hr, c, -, rfl⟩
  · exact .responded i _ fun hr => absurd (hf.symm.trans hr) nofun
  · exact .faulted i c (hwf hr) hr

/-- So does one with opcode 0x10 or above, whatever its operands. -/
theorem Effect.of_stopped_of_le {s t : State} {i : Instr} {codes : List FaultCode} (o : Opcode) (ho : i.opcode = o)
    (hle : 0x10 ≤ o.number.toNat) (h : Stopped s t codes) : Effect s i t :=
  .of_stopped (fun _ hlt => absurd hlt (by rw [ho]; exact Nat.not_lt.mpr hle)) h

theorem Effect.of_csrrd {csr : Byte} {s t : State} (h : execCsrrd csr s = .next t) : Effect s (.csrrd csr) t := by
  rcases execCsrrd_next h with ⟨hnone, rfl⟩ | ⟨v, -, rfl⟩
  · by_cases hf : s.status.fault = true
    · rw [raiseFault_faulted hf]
      exact .responded _ _ fun _ => ⟨csr, rfl⟩
    · have hr : s.Running := by simpa [State.Running] using hf
      have hunmapped : Csr.ofNumber csr = none := by simpa [readCsr] using hnone
      rw [raiseFault_running hr]
      exact .faulted _ _ (fun _ => by simp [Instr.wf, hunmapped]) hr
  · exact .responded _ _ fun _ => ⟨csr, rfl⟩

theorem Effect.of_csrwr {csr : Byte} {data : Word} {s t : State} (h : execCsrwr csr data s = .next t) :
    Effect s (.csrwr csr data) t := by
  rcases execCsrwr_next h with ⟨hstop, hillegal⟩ | ⟨hr, r, hn, hlegal, rfl⟩
  · exact .of_stopped (fun hr _ => hillegal hr) hstop
  · rw [← Csr.number_of_ofNumber hn]
    by_cases hratio : r = .threshRatio
    · subst hratio
      exact .ratioWritten data hlegal hr
    · rw [if_neg hratio]
      exact .csrWritten r data hratio hlegal hr

/-- The time of a burst is zero without an anchor (R172). -/
theorem timestamp_of_no_anchor {s : State} (i : Nat) (h : s.status.anchorValid = false) :
    (timestamp i s).tsSecs = 0 ∧ (timestamp i s).tsFrac = 0 := by
  simp [timestamp, h]

theorem Effect.of_detTest {j n : Word} {s t : State} (h : execDetTest j n s = .next t) : Effect s (.detTest j n) t := by
  rcases execDetTest_next h with hstop | ⟨hr, -, -, r, -, rfl⟩
  · exact .of_stopped_of_le .detTest rfl (by decide) hstop
  · cases r with
    | outOfWindow => exact .candidateTested _ _ _ _ _ _ nofun hr
    | reject why => exact .candidateTested _ _ _ _ _ _ nofun hr
    | accept i ref => exact .candidateTested _ _ _ _ _ _ nofun hr

/-- RUN.DETECT and RUN.DECODE on a window without the look-ahead of one candidate. -/
theorem Effect.of_insufficient {i : Instr} {n : Word} (hrun : i = .runDetect n ∨ i = .runDecode n) {s : State}
    (hr : s.Running) : Effect s i (done .insufficientLookahead (setCounts 0 0 (clearCounts s))) :=
  .noBurst i n hrun _ (.inl rfl) _ _ hr

theorem Effect.of_runDetect {n : Word} {s t : State} (h : execRunDetect n s = .next t) : Effect s (.runDetect n) t := by
  rcases execRunDetect_next h with hstop | ⟨hr, -, -, r, -, rfl⟩
  · exact .of_stopped_of_le .runDetect rfl (by decide) hstop
  · cases r with
    | insufficient => exact .of_insufficient (.inl rfl) hr
    | noBurst c => exact .noBurst _ n (.inl rfl) _ (.inr rfl) _ _ hr
    | burst i ref c =>
      simp only
      rw [timestamp_frame, setBurst, setCounts, advanceCount]
      exact .burstDetected n _ _ _ _ _ _ (timestamp_of_no_anchor (s := clearCounts s) i) hr

theorem Effect.of_sliceFrame {n : Word} {s t : State} (h : execSliceFrame n s = .next t) :
    Effect s (.sliceFrame n) t := by
  rcases execSliceFrame_next h with hstop | ⟨hr, -, rfl⟩ | ⟨hr, -, u, -, rfl⟩
  · exact .of_stopped_of_le .sliceFrame rfl (by decide) hstop
  · exact .frameSliced n .insufficientLookahead nofun _ _ _ _ hr
  · exact .frameSliced n .ok nofun _ _ _ _ hr

theorem Effect.of_clsFruit {n : Word} {s t : State} (h : execClsFruit n s = .next t) : Effect s (.clsFruit n) t := by
  rcases execClsFruit_next h with hstop | ⟨hr, -, -, rfl⟩ | ⟨hr, -, -, hit, -, rfl⟩
  · exact .of_stopped_of_le .clsFruit rfl (by decide) hstop
  · exact .fruitTooShort n hr
  · cases hit with
    | some j => exact .fruitScanned n .fruitedFrame true rfl _ hr
    | none => exact .fruitScanned n .notFruited false rfl _ hr

theorem ne_refusedFaulted_of_mem_validatorCodes {code : Code} (h : code ∈ validatorCodes) : code ≠ .refusedFaulted := by
  rintro rfl
  exact absurd h (by decide)

theorem packetCount_eq_zero_or_one (code : Code) : packetCount code = 0 ∨ packetCount code = 1 := by
  cases code <;> decide

/-- The verdict on a sliced frame is fruited or one of the validator's. -/
theorem judgeFrame_code (hit : Option Nat) (s : State) :
    if hit.isSome then (judgeFrame hit s).1 = .fruitedFrame else (judgeFrame hit s).1 ∈ validatorCodes := by
  cases hit with
  | some j => rfl
  | none => exact validateFrame_code _

theorem Effect.of_runDecode {n : Word} {s t : State} (h : execRunDecode n s = .next t) : Effect s (.runDecode n) t := by
  rcases execRunDecode_next h with hstop | ⟨hr, -, -, ⟨-, rfl⟩ | ⟨c, -, rfl⟩ | ⟨i, ref, c, v, -, hv, rfl⟩⟩
  · exact .of_stopped_of_le .runDecode rfl (by decide) hstop
  · exact .of_insufficient (.inr rfl) hr
  · exact .noBurst _ n (.inr rfl) _ (.inr rfl) _ _ hr
  · obtain ⟨u, hit, -, -, hjudge, hframe⟩ := decodeBurst_spec hv
    have hcode := judgeFrame_code hit u
    rw [← hjudge] at hcode
    have hproduced : BitVec.ofNat 32 (packetCount v.1) = 0 ∨ BitVec.ofNat 32 (packetCount v.1) = 1 := by
      rcases packetCount_eq_zero_or_one v.1 with hp | hp <;> simp [hp]
    rw [finishDecode, hframe]
    have htime := timestamp_of_no_anchor (s := clearCounts s) i
    exact Effect.burstDecoded (s := s) n _ _ hcode _ _ _ _ hproduced _ _ _ htime _ _ _ _ _ hr

/-- What a command answers is its effect. -/
theorem exec_effect {i : Instr} {s t : State} (h : exec i s = .next t) : Effect s i t := by
  cases i with
  | reset =>
    rw [execReset_next h]
    exact .reset
  | csrrd csr => exact .of_csrrd h
  | csrwr csr data => exact .of_csrwr h
  | anchor secs frac idx =>
    rcases execAnchor_next h with ⟨hstop, hillegal⟩ | ⟨hr, hlegal, rfl⟩
    · exact .of_stopped (fun hr _ => hillegal hr) hstop
    · exact .anchored _ _ _ hlegal hr
  | crcCheck length =>
    rcases execCrcCheck_next h with hstop | ⟨hr, _, -, rfl⟩
    · exact .of_stopped_of_le .crcCheck rfl (by decide) hstop
    · exact .crcChecked _ _ hr
  | detTest j n => exact .of_detTest h
  | runDetect n => exact .of_runDetect h
  | sliceBit e0 e1 ref =>
    rcases execSliceBit_next h with hstop | ⟨hr, rfl⟩
    · exact .of_stopped_of_le .sliceBit rfl (by decide) hstop
    · exact .bitSliced _ _ _ _ hr
  | sliceFrame n => exact .of_sliceFrame h
  | clsKind hdr =>
    rcases execClsKind_next h with hstop | ⟨hr, rfl⟩
    · exact .of_stopped_of_le .clsKind rfl (by decide) hstop
    · exact .kindClassified _ _ hr
  | clsFruit n => exact .of_clsFruit h
  | validate =>
    rcases execValidate_next h with hstop | ⟨hr, rfl⟩
    · exact .of_stopped_of_le .validate rfl (by decide) hstop
    · exact .validated _ (ne_refusedFaulted_of_mem_validatorCodes (validateFrame_code s)) _ _ hr
  | nextcomb x =>
    rcases execNextcomb_next h with hstop | ⟨hr, -, rfl⟩
    · exact .of_stopped_of_le .nextcomb rfl (by decide) hstop
    · exact .combined _ _ hr
  | correct =>
    rcases execCorrect_next h with hstop | ⟨hr, -, rfl⟩
    · exact .of_stopped_of_le .correct rfl (by decide) hstop
    · exact .corrected _ (by cases (correctFrame s).1 <;> nofun) _ _ hr
  | runDecode n => exact .of_runDecode h

end Sys2Proof.Machine
end

section
/-! PROOFS. 10_state.md R21 to R45: the invariant holds at reset and every step keeps it. -/

namespace Sys2Proof.Machine

/-- The invariant of the reset state, every field of which is a constant (R49). -/
theorem State.inv_resetFor {c : Config} (hc : c.wf = true) : (State.resetFor c).Inv where
  config := hc
  ratio := rfl
  sliceLow := show Csr.sliceLow.legal 0x3F000000 = true by decide +kernel
  sliceHigh := show Csr.sliceHigh.legal 0x40000000 = true by decide +kernel
  sliceStrong := show Csr.sliceStrong.legal 0x3F000000 = true by decide +kernel
  spreadRatio := show Csr.spreadRatio.legal 0x40000000 = true by decide +kernel
  anchorFrac := show legalFraction 0 = true by decide +kernel
  noAnchor := fun _ => ⟨rfl, rfl, rfl⟩
  tsAnchor := nofun
  noTime := fun _ => ⟨rfl, rfl⟩
  produced := .inl rfl
  res1 := rfl
  fault := ⟨rfl, .ok, nofun, rfl⟩

/-- Settles O52: each field of the reset state is a constant that satisfies its part of the invariant. -/
theorem invariantAtReset : Obligations.InvariantAtReset := fun _ hc => State.inv_resetFor hc

/-! ### The ends of a command keep the invariant -/

section
variable {s : State} {code : Code} (hs : s.Inv)
include hs

theorem State.Inv.respond (code : Byte) (data : Word) : (respond code data s).Inv := { hs with }

theorem State.Inv.retireCall : (retireCall s).Inv := { hs with }

theorem State.Inv.faultedBy (c : FaultCode) : (faultedBy c.byte s).Inv := { hs with fault := ⟨c, rfl, rfl⟩ }

theorem State.Inv.faultCode_eq_zero (hr : s.Running) : s.faultCode = 0 :=
  ((if_neg (by simpa [State.Running] using hr)).mp hs.fault).1

/-- A running core that ends a command with an outcome code keeps its FAULT_CODE of 0 (R44). -/
theorem State.Inv.done (hr : s.Running) (hcode : code ≠ .refusedFaulted) : (done code s).Inv :=
  { hs with fault := (if_neg (by simpa [State.Running] using hr)).mpr ⟨hs.faultCode_eq_zero hr, code, hcode, rfl⟩ }

theorem State.Inv.clearCounts : (clearCounts s).Inv := { hs with produced := .inl rfl }

/-- A timestamp is valid exactly with an anchor, and zero without one (R172). -/
theorem State.Inv.stamped {secs : DWord} {frac : Word} (htime : s.status.anchorValid = false → secs = 0 ∧ frac = 0) :
    State.Inv { s with
      tsSecs := secs, tsFrac := frac, status := { s.status with tsValid := s.status.anchorValid } } :=
  { hs with tsAnchor := id, noTime := htime }

/-- A legal CSRWR to a register other than THRESH_RATIO keeps the invariant (R22). -/
theorem State.Inv.store {r : Csr} {data : Word} (hratio : r ≠ .threshRatio) (hlegal : r.legal data = true) :
    (r.store data s).Inv := by
  cases r with
  | threshRatio => exact absurd rfl hratio
  | sliceLow => exact { hs with sliceLow := hlegal }
  | sliceHigh => exact { hs with sliceHigh := hlegal }
  | sliceStrong => exact { hs with sliceStrong := hlegal }
  | spreadRatio => exact { hs with spreadRatio := hlegal }
  | _ => exact { hs with }

end

/-! ### Every command and every step keep it -/

theorem Effect.inv {i : Instr} {s t : State} (h : Effect s i t) (hs : s.Inv) : t.Inv := by
  cases h with
  | responded _ r => exact hs.respond r.code r.data
  | faulted _ c => exact hs.faultedBy c
  | reset => exact { State.inv_resetFor hs.config with }
  | ratioWritten data hlegal => exact { hs with ratio := hlegal }
  | csrWritten r data hratio hlegal => exact (hs.store hratio hlegal).respond _ _
  | anchored secs frac idx hlegal => exact { hs with anchorFrac := hlegal, noAnchor := nofun, tsAnchor := fun _ => rfl }
  | crcChecked _ _ hr | bitSliced _ _ _ _ hr | kindClassified _ _ hr | combined _ _ hr | fruitTooShort _ hr =>
    exact State.Inv.done { hs.clearCounts with } hr nofun
  | candidateTested _ _ code _ _ _ hcode hr | frameSliced _ code hcode _ _ _ _ hr | validated code hcode _ _ hr
  | corrected code hcode _ _ hr =>
    exact State.Inv.done { hs.clearCounts with } hr hcode
  | noBurst _ _ _ code hcode _ _ hr =>
    exact State.Inv.done { hs.clearCounts with } hr (by rcases hcode with rfl | rfl <;> nofun)
  | fruitScanned _ code fruited hcode _ hr =>
    exact State.Inv.done { hs.clearCounts with } hr (by rw [hcode]; cases fruited <;> nofun)
  | burstDetected _ _ _ _ _ _ _ htime hr =>
    exact State.Inv.done { hs.stamped htime with produced := .inr rfl } hr nofun
  | burstDecoded _ code fruited hcode _ _ _ produced hproduced _ _ _ htime _ _ _ _ _ hr =>
    refine State.Inv.done { hs.stamped htime with produced := hproduced } hr ?_
    cases fruited with
    | true => exact hcode ▸ nofun
    | false => exact ne_refusedFaulted_of_mem_validatorCodes hcode

/-- A call that is no command is refused in the faulted state and faults a running core (R104, R284). -/
theorem State.Inv.rejectCall {e : DecodeError} {s t : State} (hs : s.Inv) (h : rejectCall e s = .next t) : t.Inv := by
  unfold Machine.rejectCall at h
  split at h
  · split at h <;> cases h
    · exact hs.respond _ _
    · rename_i hf
      rw [raiseFault_running (by simpa [State.Running] using hf)]
      exact hs.faultedBy _
  · split at h <;> cases h
    exact hs.respond _ _
  · cases h

/-- A retired answer is the retired next state. -/
theorem retire_next {r : Result} {t : State} (h : retire r = .next t) : ∃ u, r = .next u ∧ t = retireCall u := by
  cases r with
  | next u => exact ⟨u, rfl, by cases h; rfl⟩
  | fault _ => cases h
  | refused _ => cases h

/-- Everything one step can do (R3, R310). -/
theorem step_next {s t : State} (h : step s = .next t) :
    t = s ∨ (∃ i u, exec i s = .next u ∧ t = retireCall u) ∨ ∃ e u, rejectCall e s = .next u ∧ t = retireCall u := by
  unfold step at h
  split at h
  · cases h
    exact .inl rfl
  · split at h
    · exact .inr (.inl ⟨_, retire_next h⟩)
    · exact .inr (.inr ⟨_, retire_next h⟩)

/-- Settles O53: a step does nothing, executes a command or rejects its call, and each keeps the invariant
(`Effect.inv`, `State.Inv.rejectCall`). -/
theorem invariantKept : Obligations.InvariantKept := by
  intro s t hs h
  rcases step_next h with rfl | ⟨i, u, hu, rfl⟩ | ⟨e, u, hu, rfl⟩
  · exact hs
  · exact ((exec_effect hu).inv hs).retireCall
  · exact (hs.rejectCall hu).retireCall

end Sys2Proof.Machine
end

section
/-! PROOFS. 10_state.md R20 to R45: which commands write which registers, read off the effect of each command. -/

namespace Sys2Proof.Machine

theorem Effect.config_calls {i : Instr} {s t : State} (h : Effect s i t) :
    t.config = s.config ∧ t.calls = s.calls := by
  cases h with
  | csrWritten r data =>
    rw [store_frame]
    exact ⟨rfl, rfl⟩
  | _ => exact ⟨rfl, rfl⟩

/-- The configuration registers are written by CSRWR and RESET (R23 to R28). -/
theorem Effect.sameConfiguration {i : Instr} {s t : State} (h : Effect s i t) (hreset : i ≠ .reset)
    (hcsrwr : ∀ csr data, i ≠ .csrwr csr data) : SameConfiguration t s := by
  cases h with
  | reset => exact absurd rfl hreset
  | ratioWritten | csrWritten => exact absurd rfl (hcsrwr _ _)
  | _ => exact ⟨rfl, rfl, rfl, rfl, rfl, rfl, rfl, rfl⟩

/-- ABS_COUNT is written by the RUN commands and RESET (R29). -/
theorem Effect.absCount {i : Instr} {s t : State} (h : Effect s i t) (hreset : i ≠ .reset)
    (hrun : ∀ n, i ≠ .runDetect n ∧ i ≠ .runDecode n) : t.absCount = s.absCount := by
  cases h with
  | reset => exact absurd rfl hreset
  | csrWritten r data => rw [store_frame]; rfl
  | noBurst _ n hi => exact absurd hi (not_or.mpr (hrun n))
  | burstDetected n => exact absurd rfl (hrun n).1
  | burstDecoded n => exact absurd rfl (hrun n).2
  | _ => rfl

/-- The anchor is written by ANCHOR and RESET (R30). -/
theorem Effect.anchor {i : Instr} {s t : State} (h : Effect s i t) (hreset : i ≠ .reset)
    (hanchor : ∀ secs frac idx, i ≠ .anchor secs frac idx) :
    t.anchorSecs = s.anchorSecs ∧ t.anchorFrac = s.anchorFrac ∧ t.anchorIdx = s.anchorIdx := by
  cases h with
  | reset => exact absurd rfl hreset
  | csrWritten r data =>
    rw [store_frame]
    exact ⟨rfl, rfl, rfl⟩
  | anchored => exact absurd rfl (hanchor _ _ _)
  | _ => exact ⟨rfl, rfl, rfl⟩

/-- Settles O54: one lemma for each group of registers, over the effects of the commands. -/
theorem controlRegisterWriters : Obligations.ControlRegisterWriters := fun _ _ _ h =>
  have h := exec_effect h
  ⟨h.config_calls.1, h.config_calls.2, h.sameConfiguration, h.absCount, h.anchor⟩

/-- KIND and the low-confidence list are written by SLICE.FRAME and RUN.DECODE, the frame bits by these, VALIDATE and
CORRECT (R31, R34 to R36). -/
theorem Effect.frameRegisters {i : Instr} {s t : State} (h : Effect s i t) (hreset : i ≠ .reset)
    (hcsrwr : ∀ csr data, i ≠ .csrwr csr data) (hslice : ∀ n, i ≠ .sliceFrame n ∧ i ≠ .runDecode n) :
    t.kind = s.kind ∧ t.lcbTotal = s.lcbTotal ∧ t.lcbPos = s.lcbPos ∧
      (i ≠ .validate → i ≠ .correct → t.fb = s.fb) := by
  cases h with
  | reset => exact absurd rfl hreset
  | ratioWritten | csrWritten => exact absurd rfl (hcsrwr _ _)
  | frameSliced n => exact absurd rfl (hslice n).1
  | burstDecoded n => exact absurd rfl (hslice n).2
  | validated => exact ⟨rfl, rfl, rfl, fun hi => absurd rfl hi⟩
  | corrected => exact ⟨rfl, rfl, rfl, fun _ hi => absurd rfl hi⟩
  | _ => exact ⟨rfl, rfl, rfl, fun _ _ => rfl⟩

/-- REF_LEVEL and BURST_OFFSET are written by DET.TEST and the RUN commands (R32, R33). -/
theorem Effect.burstRegisters {i : Instr} {s t : State} (h : Effect s i t) (hreset : i ≠ .reset)
    (hcsrwr : ∀ csr data, i ≠ .csrwr csr data)
    (hdetect : ∀ j n, i ≠ .detTest j n ∧ i ≠ .runDetect n ∧ i ≠ .runDecode n) :
    t.refLevel = s.refLevel ∧ t.burstOffset = s.burstOffset := by
  cases h with
  | reset => exact absurd rfl hreset
  | ratioWritten | csrWritten => exact absurd rfl (hcsrwr _ _)
  | candidateTested j n => exact absurd rfl (hdetect j n).1
  | burstDetected n => exact absurd rfl (hdetect 0 n).2.1
  | burstDecoded n => exact absurd rfl (hdetect 0 n).2.2
  | _ => exact ⟨rfl, rfl⟩

/-- Settles O55: one lemma for each group of registers, over the effects of the commands. -/
theorem frameRegisterWriters : Obligations.FrameRegisterWriters := fun _ _ _ h hreset hcsrwr =>
  have h := exec_effect h
  ⟨h.frameRegisters hreset hcsrwr, h.burstRegisters hreset hcsrwr⟩

theorem Effect.res1 {i : Instr} {s t : State} (h : Effect s i t) (hreset : i ≠ .reset) : t.res1 = s.res1 := by
  cases h with
  | reset => exact absurd rfl hreset
  | csrWritten r data => rw [store_frame]; rfl
  | _ => rfl

/-- The system commands leave CONSUMED and PRODUCED, and OUTCOME unless they fault (R38, R39, R105). -/
theorem Effect.systemResults {i : Instr} {s t : State} (h : Effect s i t) (hreset : i ≠ .reset)
    (hsystem : i.opcode.number.toNat < 0x10) :
    t.consumed = s.consumed ∧ t.produced = s.produced ∧ (t.status.fault = s.status.fault → t.outcome = s.outcome) := by
  cases h with
  | responded | ratioWritten | anchored => exact ⟨rfl, rfl, fun _ => rfl⟩
  | faulted _ c _ hr => exact ⟨rfl, rfl, fun hf => absurd (hf.trans hr) nofun⟩
  | reset => exact absurd rfl hreset
  | csrWritten r data =>
    rw [store_frame]
    exact ⟨rfl, rfl, fun _ => rfl⟩
  | noBurst _ n hi => rcases hi with rfl | rfl <;> exact absurd hsystem (by simp [Instr.opcode, Opcode.number])
  | _ => exact absurd hsystem (by simp [Instr.opcode, Opcode.number])

/-- The TS registers are written by the RUN commands (R40). -/
theorem Effect.time {i : Instr} {s t : State} (h : Effect s i t) (hreset : i ≠ .reset)
    (hrun : ∀ n, i ≠ .runDetect n ∧ i ≠ .runDecode n) : t.tsSecs = s.tsSecs ∧ t.tsFrac = s.tsFrac := by
  cases h with
  | reset => exact absurd rfl hreset
  | csrWritten r data =>
    rw [store_frame]
    exact ⟨rfl, rfl⟩
  | burstDetected n => exact absurd rfl (hrun n).1
  | burstDecoded n => exact absurd rfl (hrun n).2
  | _ => exact ⟨rfl, rfl⟩

/-- SYNDROME is written by CRC.CHECK, VALIDATE, CORRECT and RUN.DECODE (R42). -/
theorem Effect.syndrome {i : Instr} {s t : State} (h : Effect s i t) (hreset : i ≠ .reset)
    (hcheck : ∀ a, i ≠ .crcCheck a) (hvalidate : i ≠ .validate) (hcorrect : i ≠ .correct)
    (hdecode : ∀ n, i ≠ .runDecode n) : t.syndrome = s.syndrome := by
  cases h with
  | reset => exact absurd rfl hreset
  | csrWritten r data => rw [store_frame]; rfl
  | crcChecked => exact absurd rfl (hcheck _)
  | validated => exact absurd rfl hvalidate
  | corrected => exact absurd rfl hcorrect
  | burstDecoded n => exact absurd rfl (hdecode n)
  | _ => rfl

/-- RES0 is written by DET.TEST, SLICE.BIT, CLS.KIND, CLS.FRUIT and NEXTCOMB (R43). -/
theorem Effect.res0 {i : Instr} {s t : State} (h : Effect s i t) (hreset : i ≠ .reset)
    (htest : ∀ j n, i ≠ .detTest j n) (hbit : ∀ a b c, i ≠ .sliceBit a b c) (hkind : ∀ h, i ≠ .clsKind h)
    (hfruit : ∀ n, i ≠ .clsFruit n) (hcomb : ∀ x, i ≠ .nextcomb x) : t.res0 = s.res0 := by
  cases h with
  | reset => exact absurd rfl hreset
  | csrWritten r data => rw [store_frame]; rfl
  | candidateTested => exact absurd rfl (htest _ _)
  | bitSliced => exact absurd rfl (hbit _ _ _)
  | kindClassified => exact absurd rfl (hkind _)
  | fruitScanned => exact absurd rfl (hfruit _)
  | combined => exact absurd rfl (hcomb _)
  | _ => rfl

/-- Settles O56: one lemma for each group of registers, over the effects of the commands. -/
theorem resultRegisterWriters : Obligations.ResultRegisterWriters := fun _ _ _ h hreset =>
  have h := exec_effect h
  ⟨h.res1 hreset, h.systemResults hreset, h.time hreset, h.syndrome hreset, h.res0 hreset⟩

/-! ### STATUS -/

/-- STATUS bit by bit (R45). -/
theorem statusWord_eq (f : Status) : statusWord f =
    (BitVec.ofBool f.fruited ++ BitVec.ofBool f.tsValid ++ BitVec.ofBool f.anchorValid ++ BitVec.ofBool f.cfgValid ++
      BitVec.ofBool f.fault).setWidth 32 := by
  obtain ⟨fault, cfgValid, anchorValid, tsValid, fruited⟩ := f
  revert fault cfgValid anchorValid tsValid fruited
  decide +kernel

/-- Did RUN.DECODE find a burst (R260)? -/
def DecodesBurst (i : Instr) (t : State) : Prop :=
  ∃ n, i = .runDecode n ∧ t.status.fault = false ∧ t.outcome ≠ 0x01 ∧ t.outcome ≠ 0x02

/-- Did a RUN command find a burst (R173, R260)? -/
def FindsBurst (i : Instr) (t : State) : Prop :=
  DecodesBurst i t ∨ ∃ n, i = .runDetect n ∧ t.status.fault = false ∧ t.outcome = 0x03

/-- Did the command run a fruit scan (R214, R260)? -/
def ScansForFruit (i : Instr) (t : State) : Prop :=
  DecodesBurst i t ∨ ∃ n, i = .clsFruit n ∧ t.status.fault = false ∧ t.outcome ≠ 0x01

/-- The codes of a decoded burst: none of a window without one, and 0x21 exactly when it is fruited (R106, R260). -/
theorem verdict_byte {code : Code} {fruited : Bool}
    (hcode : if fruited then code = .fruitedFrame else code ∈ validatorCodes) :
    code.byte ≠ 0x01 ∧ code.byte ≠ 0x02 ∧ (fruited = true ↔ code.byte = 0x21) := by
  cases fruited with
  | true =>
    obtain rfl : code = .fruitedFrame := hcode
    decide
  | false =>
    have hcodes : ∀ c ∈ validatorCodes, c.byte ≠ 0x01 ∧ c.byte ≠ 0x02 ∧ (false = true ↔ c.byte = 0x21) := by decide
    exact hcodes code hcode

section
variable {i : Instr} {s t : State} (h : Effect s i t) (hr : s.Running) (hreset : i ≠ .reset)
include hr h hreset

/-- A running core has FAULT set exactly by a fault (R283). -/
theorem Effect.fault_iff : t.status.fault = true ↔ ∃ c : FaultCode, t = faultedBy c.byte s := by
  have hr : s.status.fault = false := hr
  refine ⟨fun hf => ?_, fun ⟨c, ht⟩ => by rw [ht]; rfl⟩
  cases h with
  | faulted _ c => exact ⟨c, rfl⟩
  | reset => exact absurd rfl hreset
  | csrWritten r data =>
    rw [store_frame] at hf
    exact absurd (hr.symm.trans hf) nofun
  | _ => exact absurd (hr.symm.trans hf) nofun

/-- CFG_VALID is set by a legal write to THRESH_RATIO (R133). -/
theorem Effect.cfgValid_iff : t.status.cfgValid = true ↔
    s.status.cfgValid = true ∨ ∃ data, i = .csrwr 0x01 data ∧ legalWrite 0x01 data = true := by
  cases h with
  | responded _ _ hread =>
    obtain ⟨csr, rfl⟩ := hread hr
    exact (or_iff_left fun ⟨_, hi, _⟩ => nomatch hi).symm
  | faulted _ c hwf =>
    refine (or_iff_left ?_).symm
    rintro ⟨data, rfl, hlegal⟩
    exact absurd (hlegal.symm.trans (hwf (by decide : 0x03 < 0x10))) nofun
  | reset => exact absurd rfl hreset
  | ratioWritten data hlegal => exact ⟨fun _ => .inr ⟨data, rfl, hlegal⟩, fun _ => rfl⟩
  | csrWritten r data hratio =>
    rw [store_frame]
    refine (or_iff_left ?_).symm
    rintro ⟨_, hi, -⟩
    exact hratio (Csr.number_injective (Instr.csrwr.inj hi).1)
  | noBurst _ n hrun =>
    refine (or_iff_left ?_).symm
    rintro ⟨_, rfl, -⟩
    exact hrun.elim nofun nofun
  | _ => exact (or_iff_left fun ⟨_, hi, _⟩ => nomatch hi).symm

/-- ANCHOR_VALID is set by a legal ANCHOR (R134). -/
theorem Effect.anchorValid_iff : t.status.anchorValid = true ↔
    s.status.anchorValid = true ∨ ∃ secs frac idx, i = .anchor secs frac idx ∧ legalFraction frac = true := by
  cases h with
  | responded _ _ hread =>
    obtain ⟨csr, rfl⟩ := hread hr
    exact (or_iff_left fun ⟨_, _, _, hi, _⟩ => nomatch hi).symm
  | faulted _ c hwf =>
    refine (or_iff_left ?_).symm
    rintro ⟨secs, frac, idx, rfl, hlegal⟩
    exact absurd (hlegal.symm.trans (hwf (by decide : 0x04 < 0x10))) nofun
  | reset => exact absurd rfl hreset
  | csrWritten r data =>
    rw [store_frame]
    exact (or_iff_left fun ⟨_, _, _, hi, _⟩ => nomatch hi).symm
  | anchored secs frac idx hlegal => exact ⟨fun _ => .inr ⟨secs, frac, idx, rfl, hlegal⟩, fun _ => rfl⟩
  | noBurst _ n hrun =>
    refine (or_iff_left ?_).symm
    rintro ⟨_, _, _, rfl, -⟩
    exact hrun.elim nofun nofun
  | _ => exact (or_iff_left fun ⟨_, _, _, hi, _⟩ => nomatch hi).symm

/-- TS_VALID becomes ANCHOR_VALID on a burst of a RUN command (R172). -/
theorem Effect.tsValid : (FindsBurst i t → t.status.tsValid = s.status.anchorValid) ∧
    (¬ FindsBurst i t → t.status.tsValid = s.status.tsValid) := by
  cases h with
  | responded _ _ hread =>
    obtain ⟨csr, rfl⟩ := hread hr
    simp [FindsBurst, DecodesBurst]
  | faulted => simp [FindsBurst, DecodesBurst, faultedBy]
  | reset => exact absurd rfl hreset
  | csrWritten r data =>
    rw [store_frame]
    simp [FindsBurst, DecodesBurst, respondOk]
  | noBurst _ n hrun code hcode =>
    rcases hrun with rfl | rfl <;> rcases hcode with rfl | rfl <;> simp [FindsBurst, DecodesBurst, Code.byte]
  | burstDetected n => exact ⟨fun _ => rfl, fun hno => absurd (.inr ⟨n, rfl, hr, rfl⟩) hno⟩
  | burstDecoded n code fruited hcode =>
    obtain ⟨h1, h2, -⟩ := verdict_byte hcode
    exact ⟨fun _ => rfl, fun hno => absurd (.inl ⟨n, rfl, hr, h1, h2⟩) hno⟩
  | _ => simp [FindsBurst, DecodesBurst, respondOk]

/-- FRUITED becomes the verdict of a fruit scan (R214, R260). -/
theorem Effect.fruited : (ScansForFruit i t → (t.status.fruited = true ↔ t.outcome = 0x21)) ∧
    (¬ ScansForFruit i t → t.status.fruited = s.status.fruited) := by
  cases h with
  | responded _ _ hread =>
    obtain ⟨csr, rfl⟩ := hread hr
    simp [ScansForFruit, DecodesBurst]
  | faulted => simp [ScansForFruit, DecodesBurst, faultedBy]
  | reset => exact absurd rfl hreset
  | csrWritten r data =>
    rw [store_frame]
    simp [ScansForFruit, DecodesBurst, respondOk]
  | noBurst _ n hrun code hcode =>
    rcases hrun with rfl | rfl <;> rcases hcode with rfl | rfl <;> simp [ScansForFruit, DecodesBurst, Code.byte]
  | fruitTooShort => simp [ScansForFruit, DecodesBurst, Code.byte]
  | fruitScanned n code fruited hcode =>
    obtain ⟨h1, hiff⟩ : code.byte ≠ 0x01 ∧ (fruited = true ↔ code.byte = 0x21) := by
      rw [hcode]
      cases fruited <;> decide
    exact ⟨fun _ => hiff, fun hno => absurd (.inr ⟨n, rfl, hr, h1⟩) hno⟩
  | burstDecoded n code fruited hcode =>
    obtain ⟨h1, h2, hiff⟩ := verdict_byte hcode
    exact ⟨fun _ => hiff, fun hno => absurd (.inl ⟨n, rfl, hr, h1, h2⟩) hno⟩
  | _ => simp [ScansForFruit, DecodesBurst, respondOk]

end

/-- Settles O57: STATUS bit by bit, RESET by its next state, and one lemma for each flag over the effects of the
commands. -/
theorem flagWriters : Obligations.FlagWriters := by
  refine ⟨statusWord_eq, fun s t h => by rw [execReset_next h]; rfl, fun i s t hr hreset h => ?_⟩
  have h := exec_effect h
  exact ⟨h.fault_iff hr hreset, h.cfgValid_iff hr hreset, h.anchorValid_iff hr hreset, (h.tsValid hr hreset).1,
    (h.tsValid hr hreset).2, (h.fruited hr hreset).1, (h.fruited hr hreset).2⟩

end Sys2Proof.Machine
end

section
/-! PROOFS. 10_state.md R21, R22, R49 and 20_memory.md R77: the CSR map, its reset values and the refusal of an illegal
write. -/

namespace Sys2Proof.Machine

/-- Settles O1: a register of the reset state is a constant. -/
theorem resetHoldsStatedValues : Obligations.ResetHoldsStatedValues := by
  intro c r
  cases r with
  | fb n => simp [Csr.read, State.resetFor]
  | lcbPos n => simp [Csr.read, State.resetFor]
  | absCountHi | anchorSecsHi | anchorIdxHi | tsSecsHi => exact (by decide : highWord 0 = 0)
  | msgType => exact (by decide +kernel : (msgType (Vector.replicate 14 0)).setWidth 32 = (0 : Word))
  | status => exact (by decide : statusWord ⟨false, false, false, false, false⟩ = 0)
  | _ => rfl

theorem readCsr_number (r : Csr) (s : State) : readCsr r.number s = some (r.read s) := by
  rw [readCsr, Csr.ofNumber_number, Option.map_some]

theorem readCsr_eq_none_iff (b : Byte) (s : State) : readCsr b s = none ↔ Csr.ofNumber b = none :=
  Option.map_eq_none_iff

theorem lowWord_eq (v : DWord) : lowWord v = v.setWidth 32 := by
  apply BitVec.eq_of_toNat_eq
  simp [lowWord]

theorem highWord_eq (v : DWord) : highWord v = (v >>> 32).setWidth 32 := by
  apply BitVec.eq_of_toNat_eq
  simp [highWord]

theorem kindWord_eq (kind : FrameKind) : kindWord kind = if kind = .long then 1 else 0 := by
  cases kind <;> rfl

/-- MSG_TYPE is FB0 without its three low bits (R41). -/
theorem msgType_toNat (fb : Vector Byte 14) : (msgType fb).toNat = (fb[0] >>> 3).toNat := by
  have := fb[0].isLt
  simp only [msgType, BitVec.extractLsb'_toNat, BitVec.toNat_ushiftRight, Nat.shiftRight_eq_div_pow]
  omega

theorem msgType_setWidth (fb : Vector Byte 14) : (msgType fb).setWidth 32 = (fb[0] >>> 3).setWidth 32 := by
  apply BitVec.eq_of_toNat_eq
  rw [BitVec.toNat_setWidth, BitVec.toNat_setWidth, msgType_toNat]

/-- The gaps of the map (R77). -/
theorem Csr.ofNumber_eq_none_iff : ∀ b : Byte, Csr.ofNumber b = none ↔
    b.toNat = 0 ∨ (0x09 ≤ b.toNat ∧ b.toNat ≤ 0x0F) ∨ (0x17 ≤ b.toNat ∧ b.toNat ≤ 0x1F) ∨
    (0x24 ≤ b.toNat ∧ b.toNat ≤ 0x2F) ∨ (0x3E ≤ b.toNat ∧ b.toNat ≤ 0x3F) ∨
    (0x58 ≤ b.toNat ∧ b.toNat ≤ 0x5F) ∨ 0x6C ≤ b.toNat := by
  decide +kernel

/-- Settles O9: each number is the register's own (`readCsr_number`), and the gaps are counted over all bytes. -/
theorem csrMapReads : Obligations.CsrMapReads := by
  intro s
  have hread := fun r : Csr => readCsr_number r s
  have hlow := fun v : DWord => congrArg some (lowWord_eq v)
  have hhigh := fun v : DWord => congrArg some (highWord_eq v)
  exact ⟨hread .threshRatio, hread .longMask, hread .nocorrMask, hread .sliceLow, hread .sliceHigh, hread .sliceStrong,
    hread .spreadRatio, hread .lcbLimit, (hread .absCountLo).trans (hlow _), (hread .absCountHi).trans (hhigh _),
    (hread .anchorSecsLo).trans (hlow _), (hread .anchorSecsHi).trans (hhigh _), hread .anchorFrac,
    (hread .anchorIdxLo).trans (hlow _), (hread .anchorIdxHi).trans (hhigh _),
    (hread .kind).trans (congrArg some (kindWord_eq _)), hread .refLevel, hread .burstOffset, hread .lcbTotal,
    fun n => hread (.fb n), fun n => hread (.lcbPos n), hread .outcome, hread .consumed, hread .produced,
    (hread .tsSecsLo).trans (hlow _), (hread .tsSecsHi).trans (hhigh _), hread .tsFrac,
    (hread .msgType).trans (congrArg some (msgType_setWidth _)), hread .syndrome, hread .res0, hread .res1,
    hread .faultCode, hread .status, fun b => (readCsr_eq_none_iff b s).trans (Csr.ofNumber_eq_none_iff b)⟩

/-- Settles O12: an illegal write gives no state, so CSRWR raises its operand fault. -/
theorem csrwrRefusesIllegalData : Obligations.CsrwrRefusesIllegalData := by
  intro s csr r data hr hn hillegal
  have hnone : writeCsr csr data s = none := by simp [writeCsr, hn, hillegal]
  calc exec (.csrwr csr data) s = execCsrwr csr data s := rfl
    _ = .next (raiseFault .badOperand s) := by rw [execCsrwr, systemCommand_running hr, hnone]
    _ = .next (faultedBy 0xF1 s) := by rw [raiseFault_running hr]; rfl

end Sys2Proof.Machine
end

section
/-! PROOFS. 10_state.md R21, R22 and 40_system.md R133, R134: the legal values of the CSR map as bit patterns. -/

namespace Sys2Proof.Machine

/-! ### The fields of a pattern (R74) -/

theorem signField_eq (w : Word) : w.getLsbD 31 = decide (2 ^ 31 ≤ w.toNat) := BitVec.getLsbD_last w

theorem exponentField_toNat (w : Word) : (w.extractLsb' 23 8).toNat = w.toNat / 2 ^ 23 % 2 ^ 8 := by
  rw [BitVec.extractLsb'_toNat, Nat.shiftRight_eq_div_pow]

theorem fractionField_toNat (w : Word) : (w.extractLsb' 0 23).toNat = w.toNat % 2 ^ 23 := by
  rw [BitVec.extractLsb'_toNat, Nat.shiftRight_zero]

/-- A pattern with exponent field 255 is no finite number. -/
theorem Fp32.isFinite_ofBits_eq_false {w : Word} (h : w.toNat / 2 ^ 23 % 2 ^ 8 = 255) :
    (Fp32.ofBits w).isFinite = false := by
  simp only [Fp32.ofBits, exponentField_toNat, h, if_true]
  split <;> rfl

/-- A significand of 24 bits makes at least 1 exactly from the exponent -23 up. -/
theorem one_le_mul_zpow_iff {m : Nat} {e : Int} (hlow : 2 ^ 23 ≤ m) (hhigh : m < 2 ^ 24) :
    (1 : ℚ) ≤ m * 2 ^ e ↔ -23 ≤ e := by
  constructor
  · intro h
    by_contra he
    refine absurd h (not_le.mpr ?_)
    calc (m : ℚ) * 2 ^ e < (2 ^ 24 : Nat) * 2 ^ e := by gcongr
      _ ≤ (2 ^ 24 : Nat) * 2 ^ (-24 : Int) := by
          gcongr
          · norm_num
          · omega
      _ = 1 := by norm_num
  · intro he
    calc (1 : ℚ) = (2 ^ 23 : Nat) * 2 ^ (-23 : Int) := by norm_num
      _ ≤ m * 2 ^ e := by gcongr; norm_num

/-- Every other pattern is a finite number with the sign of bit 31, zero exactly when the other bits are, and with a
magnitude of at least 1 exactly from exponent field 127 up. -/
theorem Fp32.ofBits_finite {w : Word} (h : w.toNat / 2 ^ 23 % 2 ^ 8 ≠ 255) :
    ∃ (m : Nat) (e : Int), Fp32.ofBits w = .fin (decide (2 ^ 31 ≤ w.toNat)) m e ∧ (m = 0 ↔ w.toNat % 2 ^ 31 = 0) ∧
      ((1 : ℚ) ≤ m * 2 ^ e ↔ 127 ≤ w.toNat / 2 ^ 23 % 2 ^ 8) := by
  have hfraction : w.toNat % 2 ^ 23 < 2 ^ 23 := Nat.mod_lt _ (by decide)
  simp only [Fp32.ofBits, signField_eq, exponentField_toNat, fractionField_toNat, if_neg h]
  by_cases hsub : w.toNat / 2 ^ 23 % 2 ^ 8 = 0
  · rw [if_pos hsub]
    refine ⟨_, _, rfl, by omega, iff_of_false (not_le.mpr ?_) (by omega)⟩
    calc ((w.toNat % 2 ^ 23 : Nat) : ℚ) * 2 ^ (-149 : Int) < (2 ^ 23 : Nat) * 2 ^ (-149 : Int) := by gcongr
      _ ≤ 1 := by norm_num
  · rw [if_neg hsub]
    refine ⟨_, _, rfl, by omega, ?_⟩
    rw [one_le_mul_zpow_iff (by omega) (by omega)]
    omega

/-! ### The ranges of R21 as comparisons of a finite number -/

section
variable (neg : Bool) (m : Nat) (e : Int)

theorem finValue_false : finValue false m e = m * 2 ^ e := by
  simp [finValue]

theorem finValue_true : finValue true m e = -(m * 2 ^ e) := by
  simp [finValue]

theorem magnitude_eq_zero_iff : (m : ℚ) * 2 ^ e = 0 ↔ m = 0 := by
  have : (2 : ℚ) ^ e ≠ 0 := by positivity
  simp [this]

theorem Fp32.zero_eq : Fp32.zero = .fin false 0 (-149) := rfl

theorem Fp32.one_eq : Fp32.one = .fin false (2 ^ 23) (-23) := rfl

theorem finValue_zero : finValue false 0 (-149) = 0 := by norm_num [finValue]

theorem finValue_one : finValue false (2 ^ 23) (-23) = 1 := by norm_num [finValue]

theorem positiveNum_fin : positiveNum (.fin neg m e) = true ↔ neg = false ∧ m ≠ 0 := by
  have hmagnitude : (0 : ℚ) ≤ m * 2 ^ e := by positivity
  rw [positiveNum, Fp32.gt, Fp32.zero_eq, Fp32.lt_fin_iff, finValue_zero, ne_eq, ← magnitude_eq_zero_iff m e]
  cases neg with
  | false => simp [finValue_false, lt_iff_le_and_ne, hmagnitude, eq_comm]
  | true => simp [finValue_true, hmagnitude]

theorem nonnegativeNum_fin : nonnegativeNum (.fin neg m e) = true ↔ neg = false ∨ m = 0 := by
  have hmagnitude : (0 : ℚ) ≤ m * 2 ^ e := by positivity
  rw [nonnegativeNum, Fp32.zero_eq, Fp32.ge_fin_iff, finValue_zero, ← magnitude_eq_zero_iff m e]
  cases neg with
  | false => simp [finValue_false, hmagnitude]
  | true => simp [finValue_true, le_antisymm_iff, hmagnitude]

theorem atLeastOne_fin : atLeastOne (.fin neg m e) = true ↔ neg = false ∧ (1 : ℚ) ≤ m * 2 ^ e := by
  have hmagnitude : (0 : ℚ) ≤ m * 2 ^ e := by positivity
  rw [atLeastOne, Fp32.one_eq, Fp32.ge_fin_iff, finValue_one]
  cases neg with
  | false => simp [finValue_false]
  | true =>
    rw [finValue_true]
    exact iff_of_false (by linarith) nofun

theorem lt_one_fin : (Fp32.fin neg m e).lt .one = true ↔ neg = true ∨ ¬ (1 : ℚ) ≤ m * 2 ^ e := by
  have hatLeastOne := atLeastOne_fin neg m e
  rw [atLeastOne, Fp32.one_eq, Fp32.ge_fin_iff] at hatLeastOne
  rw [Fp32.one_eq, Fp32.lt_fin_iff, ← not_le, hatLeastOne, not_and_or, Bool.not_eq_false]

end

/-! ### The legal patterns -/

section
variable {w : Word}

/-- The legal data of a `NUM` register are patterns of finite numbers, so their range `P` is that of the finite ones. -/
theorem legalNum_iff {ok : Fp32 → Bool} {P : Prop} (hfinite : P → w.toNat / 2 ^ 23 % 2 ^ 8 ≠ 255)
    (hrange : w.toNat / 2 ^ 23 % 2 ^ 8 ≠ 255 → ∀ (m : Nat) (e : Int), (m = 0 ↔ w.toNat % 2 ^ 31 = 0) →
      ((1 : ℚ) ≤ m * 2 ^ e ↔ 127 ≤ w.toNat / 2 ^ 23 % 2 ^ 8) →
      (ok (.fin (decide (2 ^ 31 ≤ w.toNat)) m e) = true ↔ P)) : legalNum ok w = true ↔ P := by
  by_cases h : w.toNat / 2 ^ 23 % 2 ^ 8 = 255
  · rw [legalNum, Fp32.isFinite_ofBits_eq_false h, Bool.false_and]
    exact iff_of_false nofun fun hP => hfinite hP h
  · obtain ⟨m, e, hw, hzero, hone⟩ := Fp32.ofBits_finite h
    rw [legalNum, hw, Fp32.isFinite, Bool.true_and]
    exact hrange h m e hzero hone

theorem legalNum_positiveNum : legalNum positiveNum w = true ↔ 0 < w.toNat ∧ w.toNat < 0x7F800000 :=
  legalNum_iff (by omega) fun h m e hzero _ => by
    rw [positiveNum_fin, decide_eq_false_iff_not]
    omega

theorem legalNum_nonnegativeNum :
    legalNum nonnegativeNum w = true ↔ w.toNat < 0x7F800000 ∨ w.toNat = 0x80000000 :=
  legalNum_iff (by omega) fun h m e hzero _ => by
    have := w.isLt
    rw [nonnegativeNum_fin, decide_eq_false_iff_not]
    omega

theorem legalNum_atLeastOne : legalNum atLeastOne w = true ↔ 0x3F800000 ≤ w.toNat ∧ w.toNat < 0x7F800000 :=
  legalNum_iff (by omega) fun h m e _ hone => by
    rw [atLeastOne_fin, decide_eq_false_iff_not, hone]
    omega

theorem legalFraction_iff : legalFraction w = true ↔ w.toNat < 0x3F800000 ∨ w.toNat = 0x80000000 := by
  rw [legalFraction, Bool.and_assoc]
  refine legalNum_iff (ok := fun x => x.ge .zero && x.lt .one) (by omega) fun h m e hzero hone => ?_
  have := w.isLt
  rw [Bool.and_eq_true, ← nonnegativeNum, nonnegativeNum_fin, lt_one_fin, decide_eq_true_iff, decide_eq_false_iff_not,
    hone]
  omega

end

/-- Settles O13: the `NUM` ranges by the values of their patterns (`legalNum_iff`), the others by their definition. -/
theorem legalValues : Obligations.LegalValues := by
  intro data
  refine ⟨legalNum_positiveNum, legalNum_positiveNum, legalNum_positiveNum, legalNum_nonnegativeNum,
    legalNum_atLeastOne, decide_eq_true_iff, decide_eq_true_iff, decide_eq_true_iff, fun _ => decide_eq_true_iff,
    fun _ => decide_eq_true_iff, ?_, ?_, legalFraction_iff⟩ <;> simp [Csr.legal]

end Sys2Proof.Machine
end

section
/-! PROOFS. 10_state.md R36, R37: the frame registers after slicing. -/

namespace Sys2Proof.Machine

/-! ### The frame bits of the bits that are sliced -/

theorem storeBit_fb (k : Fin 112) (b : SlicedBit) (s : State) : (storeBit k b s).fb = setFrameBit s.fb k b.value := by
  unfold storeBit
  split <;> rfl

/-- Slicing a bit stores one decision (R193). -/
theorem sliceOne_eq_storeBit {w : Window} {i : Nat} {ref : Fp32} {s t : State} {k : Fin 112}
    (h : sliceOne w i ref s k = some t) : ∃ b, t = storeBit k b s := by
  simp only [sliceOne, Option.bind_eq_bind, Option.bind_eq_some_iff, Option.pure_def, Option.some.injEq] at h
  obtain ⟨e0, -, e1, -, rfl⟩ := h
  exact ⟨_, rfl⟩

/-- Slicing a list of bits stores a decision for the first, then slices the others. -/
theorem sliceBits_cons {w : Window} {i : Nat} {ref : Fp32} {k : Fin 112} {ks : List (Fin 112)} {s t : State}
    (h : sliceBits w i ref (k :: ks) s = some t) : ∃ b, sliceBits w i ref ks (storeBit k b s) = some t := by
  simp only [sliceBits, Option.bind_eq_bind, Option.bind_eq_some_iff] at h
  obtain ⟨u, hu, h⟩ := h
  obtain ⟨b, rfl⟩ := sliceOne_eq_storeBit hu
  exact ⟨b, h⟩

/-- A frame bit that is not sliced keeps its value. -/
theorem sliceBits_frameBit {w : Window} {i : Nat} {ref : Fp32} {k' : Fin 112} :
    ∀ {ks : List (Fin 112)} {s t : State}, sliceBits w i ref ks s = some t → k' ∉ ks →
      frameBit t.fb k' = frameBit s.fb k'
  | [], s, t, h, _ => by
    obtain rfl : s = t := by simpa [sliceBits] using h
    rfl
  | k :: ks, s, t, h, hk' => by
    obtain ⟨hne, hk'⟩ : k' ≠ k ∧ k' ∉ ks := by simpa using hk'
    obtain ⟨b, h⟩ := sliceBits_cons h
    rw [sliceBits_frameBit h hk', storeBit_fb, frameBit_setFrameBit, if_neg (Ne.symm hne)]

/-! ### The low-confidence list -/

/-- The low-confidence list after slicing bits below `n`: its entries are strictly increasing and below `n`, the others
0, and it counts no more bits than there are. -/
structure RecordedBelow (n : Nat) (s : State) : Prop where
  ordered : ∀ a b : Fin 24, a < b → b.val < s.lcbTotal.val → s.lcbPos[a] < s.lcbPos[b]
  below : ∀ a : Fin 24, a.val < s.lcbTotal.val → s.lcbPos[a].val < n
  unused : ∀ a : Fin 24, s.lcbTotal.val ≤ a.val → s.lcbPos[a] = 0
  total : s.lcbTotal.val ≤ n

theorem RecordedBelow.mono {n m : Nat} {s : State} (h : RecordedBelow n s) (hnm : n ≤ m) : RecordedBelow m s :=
  { h with below := fun a ha => lt_of_lt_of_le (h.below a ha) hnm, total := h.total.trans hnm }

theorem recordedBelow_clearFrame (s : State) : RecordedBelow 0 (clearFrame s) where
  ordered _ _ _ hb := absurd hb (Nat.not_lt_zero _)
  below _ ha := absurd ha (Nat.not_lt_zero _)
  unused a _ := by simp
  total := Nat.zero_le _

/-- The count goes up by one: it is at most the number of bits before `k`, so it does not wrap (R34). -/
theorem noteLowConfidence_lcbTotal {k : Fin 112} {s : State} (h : RecordedBelow k.val s) :
    (noteLowConfidence k s).lcbTotal.val = s.lcbTotal.val + 1 := by
  have htotal := h.total
  have hk := k.isLt
  simp only [noteLowConfidence, Fin.val_add, Fin.val_one]
  omega

/-- The entry of a low-confidence bit is the next one, if there is one left (R193). -/
theorem noteLowConfidence_lcbPos (k : Fin 112) (s : State) (a : Fin 24) :
    (noteLowConfidence k s).lcbPos[a] = if s.lcbTotal.val = a.val then k else s.lcbPos[a] := by
  simp only [noteLowConfidence, Fin.getElem_fin]
  split
  · rw [Vector.getElem_set]
  · rw [if_neg (by omega)]

/-- Recording bit `k` after bits below `k` leaves a list of bits up to `k`. -/
theorem RecordedBelow.noteLowConfidence {k : Fin 112} {s : State} (h : RecordedBelow k.val s) :
    RecordedBelow (k.val + 1) (noteLowConfidence k s) where
  ordered a b hab hb := by
    rw [noteLowConfidence_lcbTotal h] at hb
    rw [noteLowConfidence_lcbPos, noteLowConfidence_lcbPos, if_neg (by omega)]
    split
    · exact h.below a (by omega)
    · exact h.ordered a b hab (by omega)
  below a ha := by
    rw [noteLowConfidence_lcbTotal h] at ha
    rw [noteLowConfidence_lcbPos]
    split
    · exact Nat.lt_succ_self _
    · exact Nat.lt_succ_of_lt (h.below a (by omega))
  unused a ha := by
    rw [noteLowConfidence_lcbTotal h] at ha
    rw [noteLowConfidence_lcbPos, if_neg (by omega)]
    exact h.unused a (by omega)
  total := by
    rw [noteLowConfidence_lcbTotal h]
    exact Nat.succ_le_succ h.total

theorem RecordedBelow.storeBit {k : Fin 112} {s : State} (h : RecordedBelow k.val s) (b : SlicedBit) :
    RecordedBelow (k.val + 1) (storeBit k b s) := by
  have hstored : RecordedBelow k.val { s with fb := setFrameBit s.fb k b.value } := { h with }
  unfold Machine.storeBit
  split
  · exact hstored.mono (Nat.le_succ _)
  · exact hstored.noteLowConfidence

/-- Slicing ascending bits from `n` up to below `m` keeps the list in order. -/
theorem RecordedBelow.sliceBits {w : Window} {i : Nat} {ref : Fp32} {m : Nat} :
    ∀ {ks : List (Fin 112)} {n : Nat} {s t : State}, RecordedBelow n s → sliceBits w i ref ks s = some t →
      ks.Pairwise (· < ·) → (∀ k ∈ ks, n ≤ k.val ∧ k.val < m) → n ≤ m → RecordedBelow m t
  | [], n, s, t, hs, h, _, _, hnm => by
    obtain rfl : s = t := by simpa [Machine.sliceBits] using h
    exact hs.mono hnm
  | k :: ks, n, s, t, hs, h, hpair, hks, hnm => by
    obtain ⟨b, h⟩ := sliceBits_cons h
    obtain ⟨hlt, hpair⟩ := List.pairwise_cons.mp hpair
    obtain ⟨⟨hnk, hkm⟩, hks⟩ := List.forall_mem_cons.mp hks
    exact ((hs.mono hnk).storeBit b).sliceBits h hpair (fun k' hk' => ⟨hlt k' hk', (hks k' hk').2⟩) hkm

/-! ### The two parts of a frame -/

theorem frameIndices_pairwise (kind : FrameKind) : (frameIndices kind).Pairwise (· < ·) :=
  (List.pairwise_lt_finRange 112).sublist (List.take_sublist _ _)

/-- The header bits are those below 5. -/
theorem mem_header {k : Fin 112} (h : k ∈ (frameIndices .short).take 5) : k.val < 5 := by
  revert k
  decide +kernel

/-- The other bits of a kind are those from 5 up to its length. -/
theorem mem_afterHeader {kind : FrameKind} {k : Fin 112} (h : k ∈ (frameIndices kind).drop 5) :
    5 ≤ k.val ∧ k.val < kindLen kind := by
  cases kind <;> revert k <;> decide +kernel

/-- MSG_TYPE is made of the five header bits (R41). -/
theorem msgType_congr {fb fb' : Vector Byte 14} (h : ∀ k : Fin 112, k.val < 5 → frameBit fb k = frameBit fb' k) :
    msgType fb = msgType fb' := by
  apply BitVec.eq_of_getLsbD_eq
  intro j hj
  have hbit : ∀ v : Vector Byte 14, (msgType v).getLsbD j = frameBit v ⟨4 - j, by omega⟩ := by
    intro v
    have hbyte : (4 - j) / 8 = 0 := by omega
    have hplace : 7 - (4 - j) % 8 = 3 + j := by omega
    simp [msgType, frameBit, hbyte, hplace, hj]
  rw [hbit, hbit]
  exact h _ (by simp; omega)

/-- The two rounds of slicing a frame, with KIND decided between them (R193). -/
theorem sliceFrame_parts {w : Window} {i : Nat} {ref : Word} {s t : State} (h : sliceFrame w i ref s = some t) :
    ∃ header, sliceBits w i (Fp32.ofBits ref) ((frameIndices .short).take 5) (clearFrame s) = some header ∧
      sliceBits w i (Fp32.ofBits ref) ((frameIndices t.kind).drop 5) (classify header) = some t ∧
      t.kind = kindOf s.longMask (msgType header.fb) := by
  simp only [sliceFrame, Option.bind_eq_bind, Option.bind_eq_some_iff] at h
  obtain ⟨header, hheader, h⟩ := h
  have hkind : t.kind = (classify header).kind := by rw [sliceBits_frame h]
  refine ⟨header, hheader, hkind ▸ h, ?_⟩
  rw [hkind, classify_kind, sliceBits_frame hheader]
  rfl

theorem kindOf_eq_long_iff (mask : Word) (hdr : BitVec 5) :
    kindOf mask hdr = .long ↔ mask.getLsbD hdr.toNat = true := by
  simp [kindOf]

/-- Settles O30: the bits above the frame are never sliced, the list is kept in order through both rounds, and the
second round leaves the header bits. -/
theorem slicedFrameInvariants : Obligations.SlicedFrameInvariants := by
  intro w i ref s t h
  obtain ⟨header, hheader, hrest, hkind⟩ := sliceFrame_parts h
  have hlen : 5 ≤ kindLen t.kind := by cases t.kind <;> decide
  have hlist : RecordedBelow (kindLen t.kind) t := by
    have hfirst : RecordedBelow 5 header := (recordedBelow_clearFrame s).sliceBits hheader
      ((frameIndices_pairwise _).sublist (List.take_sublist _ _)) (fun _ hk => ⟨Nat.zero_le _, mem_header hk⟩)
      (by decide)
    have hclassified : RecordedBelow 5 (classify header) := { hfirst with }
    exact hclassified.sliceBits hrest ((frameIndices_pairwise _).sublist (List.drop_sublist _ _))
      (fun k hk => mem_afterHeader hk) hlen
  refine ⟨fun k hk => ?_, ⟨hlist.ordered, hlist.below, hlist.unused⟩, t.lcbPos.length_toList, ?_⟩
  · rw [sliceBits_frameBit hrest fun hmem => absurd (mem_afterHeader hmem).2 (by omega), classify_fb,
      sliceBits_frameBit hheader fun hmem => absurd (mem_header hmem) (by omega), clearFrame_fb, frameBit_zero]
  · have hheaderBits : msgType t.fb = msgType header.fb := msgType_congr fun k hk => by
      rw [sliceBits_frameBit hrest fun hmem => absurd (mem_afterHeader hmem).1 (by omega), classify_fb]
    rw [hkind, kindOf_eq_long_iff, ← hheaderBits, msgType_toNat]

end Sys2Proof.Machine
end

section
/-! PROOFS. 20_memory.md R73, R76 and 41_crc_parity.md R150: where a frame bit stands, and the syndrome as a sum over
the set frame bits. -/

namespace Sys2Proof.Machine

/-! ### The bits of the frame bytes -/

/-- Bit `m` of byte `n` is frame bit `8 n + (7 - m)` (R73). -/
theorem getLsbD_eq_frameBit (fb : Vector Byte 14) (n : Fin 14) (m : Fin 8) :
    fb[n].getLsbD m = frameBit fb ⟨8 * n.val + (7 - m.val), by omega⟩ := by
  have hbyte : (8 * n.val + (7 - m.val)) / 8 = n.val := by omega
  have hplace : 7 - (8 * n.val + (7 - m.val)) % 8 = m.val := by omega
  simp only [frameBit, hbyte, hplace, Fin.getElem_fin]

/-- The byte and the place in it determine the frame bit. -/
theorem frameBit_index_eq_iff (k : Fin 112) (n : Fin 14) (m : Fin 8) :
    k = ⟨8 * n.val + (7 - m.val), by omega⟩ ↔ n.val = k.val / 8 ∧ m.val = 7 - k.val % 8 := by
  simp only [Fin.ext_iff]
  omega

/-- Writing a frame bit gives it the value and leaves every other bit of every byte (R76). -/
theorem getLsbD_setFrameBit (fb : Vector Byte 14) (k : Fin 112) (b : Bool) (n : Fin 14) (m : Fin 8) :
    (setFrameBit fb k b)[n].getLsbD m =
      if n.val = k.val / 8 ∧ m.val = 7 - k.val % 8 then b else fb[n].getLsbD m := by
  simp only [getLsbD_eq_frameBit, frameBit_setFrameBit, frameBit_index_eq_iff]

/-- Flipping a frame bit inverts it and leaves every other bit of every byte. -/
theorem getLsbD_flipFrameBit (fb : Vector Byte 14) (k : Fin 112) (n : Fin 14) (m : Fin 8) :
    (flipFrameBit fb k)[n].getLsbD m =
      if n.val = k.val / 8 ∧ m.val = 7 - k.val % 8 then !fb[n].getLsbD m else fb[n].getLsbD m := by
  simp only [getLsbD_eq_frameBit, frameBit_flipFrameBit, ← frameBit_index_eq_iff]
  split <;> simp [*]

/-! ### The syndrome -/

theorem kindLen_le (kind : FrameKind) : kindLen kind ≤ 112 := by
  cases kind <;> decide

theorem frameIndices_eq_map (kind : FrameKind) :
    frameIndices kind = (List.finRange (kindLen kind)).map (Fin.castLE (kindLen_le kind)) := by
  cases kind <;> decide +kernel

/-- Frame bit `i` of a kind is paired with table entry `i + (112 - len)` (R150). -/
theorem tableSegment_eq_map (table : Vector Word24 112) (kind : FrameKind) :
    tableSegment table kind = (List.finRange (kindLen kind)).map fun i =>
      table[i.val + (112 - kindLen kind)]'(by have := kindLen_le kind; omega) := by
  have hlen := kindLen_le kind
  refine List.ext_getElem (by simp [tableSegment]; omega) fun i _ _ => ?_
  simp [tableSegment, Nat.add_comm]

/-- The loop of R150 runs over the frame bits of the kind, each with its table entry. -/
theorem crc_eq_foldl (table : Vector Word24 112) (kind : FrameKind) (fb : Vector Byte 14) :
    crc table kind fb = (List.finRange (kindLen kind)).foldl (fun acc i => crcStep fb acc
      (i.castLE (kindLen_le kind), table[i.val + (112 - kindLen kind)]'(by have := kindLen_le kind; omega))) 0 := by
  rw [crc, frameIndices_eq_map, tableSegment_eq_map, List.zip_map', List.foldl_map]

/-- Settles O16: a byte's bits are frame bits, whose reads after a write are known, and `crc_eq_foldl` for each kind. -/
theorem frameBitsAndSyndrome : Obligations.FrameBitsAndSyndrome := fun table fb =>
  ⟨fun _ => rfl, getLsbD_setFrameBit fb, getLsbD_flipFrameBit fb, crc_eq_foldl table .long fb,
    crc_eq_foldl table .short fb⟩

end Sys2Proof.Machine
end

section
/-! PROOFS. 20_memory.md R74: the value of each class of binary32 pattern, and the pattern of that value. -/

namespace Sys2Proof.Machine

/-! ### The classes of patterns -/

section
variable {w : Word}

theorem Fp32.ofBits_inf (hexponent : w.toNat / 2 ^ 23 % 2 ^ 8 = 255) (hfraction : w.toNat % 2 ^ 23 = 0) :
    Fp32.ofBits w = .inf (decide (2 ^ 31 ≤ w.toNat)) := by
  simp only [Fp32.ofBits, signField_eq, exponentField_toNat, fractionField_toNat, if_pos hexponent, if_pos hfraction]

theorem Fp32.ofBits_nan (hexponent : w.toNat / 2 ^ 23 % 2 ^ 8 = 255) (hfraction : w.toNat % 2 ^ 23 ≠ 0) :
    Fp32.ofBits w = .nan w := by
  simp only [Fp32.ofBits, exponentField_toNat, fractionField_toNat, if_pos hexponent, if_neg hfraction]

theorem Fp32.ofBits_subnormal (hexponent : w.toNat / 2 ^ 23 % 2 ^ 8 = 0) :
    Fp32.ofBits w = .fin (decide (2 ^ 31 ≤ w.toNat)) (w.toNat % 2 ^ 23) (-149) := by
  simp only [Fp32.ofBits, signField_eq, exponentField_toNat, fractionField_toNat, hexponent, OfNat.zero_ne_ofNat,
    if_true, if_false]

theorem Fp32.ofBits_normal (hzero : w.toNat / 2 ^ 23 % 2 ^ 8 ≠ 0) (hmax : w.toNat / 2 ^ 23 % 2 ^ 8 ≠ 255) :
    Fp32.ofBits w = .fin (decide (2 ^ 31 ≤ w.toNat)) (2 ^ 23 + w.toNat % 2 ^ 23)
      ((w.toNat / 2 ^ 23 % 2 ^ 8 : Nat) - 150) := by
  simp only [Fp32.ofBits, signField_eq, exponentField_toNat, fractionField_toNat, if_neg hzero, if_neg hmax]

end

/-! ### The values of the finite classes -/

/-- A subnormal's fraction counts units of the last place. -/
theorem subnormal_value (fraction : Nat) :
    (fraction : ℚ) * 2 ^ (-149 : ℤ) = (fraction : ℚ) / 2 ^ 23 * 2 ^ (-126 : ℤ) := by
  norm_num
  ring

/-- The significand with its hidden bit, in units of the last place, is one and the fraction. -/
theorem normal_value (fraction : Nat) (exponent : ℤ) :
    ((2 ^ 23 + fraction : Nat) : ℚ) * 2 ^ (exponent - 150) =
      (1 + (fraction : ℚ) / 2 ^ 23) * 2 ^ (exponent - 127) := by
  have hunit : (2 : ℚ) ^ (exponent - 127) = 2 ^ 23 * 2 ^ (exponent - 150) := by
    rw [← zpow_natCast, ← zpow_add₀ two_ne_zero]
    congr 1
    push_cast
    ring
  rw [hunit]
  push_cast
  ring

/-! ### Writing a value back -/

/-- The sign with the other 31 bits of a pattern packs to that pattern. -/
theorem ofNat_eq_of_fields {w : Word} {low : Nat} (h : w.toNat % 2 ^ 31 = low) :
    BitVec.ofNat 32 ((if decide (2 ^ 31 ≤ w.toNat) then 2 ^ 31 else 0) + low) = w := by
  have hw := w.isLt
  have hsplit : (if decide (2 ^ 31 ≤ w.toNat) then 2 ^ 31 else 0) + low = w.toNat := by
    simp only [decide_eq_true_iff]
    split <;> omega
  rw [hsplit, BitVec.ofNat_toNat, BitVec.setWidth_eq]

/-- Packing the value of a pattern gives the pattern (R74). -/
theorem Fp32.toBits_ofBits (w : Word) : (Fp32.ofBits w).toBits = w := by
  by_cases hmax : w.toNat / 2 ^ 23 % 2 ^ 8 = 255
  · by_cases hfraction : w.toNat % 2 ^ 23 = 0
    · rw [Fp32.ofBits_inf hmax hfraction]
      exact ofNat_eq_of_fields (by omega)
    · rw [Fp32.ofBits_nan hmax hfraction, Fp32.toBits]
  · by_cases hzero : w.toNat / 2 ^ 23 % 2 ^ 8 = 0
    · rw [Fp32.ofBits_subnormal hzero, Fp32.toBits, if_pos (Nat.mod_lt _ (by decide))]
      exact ofNat_eq_of_fields (by omega)
    · rw [Fp32.ofBits_normal hzero hmax, Fp32.toBits, if_neg (Nat.not_lt.mpr (Nat.le_add_right _ _)), sub_add_cancel,
        Int.toNat_natCast, Nat.add_sub_cancel_left]
      exact ofNat_eq_of_fields (by omega)

/-- Settles O60: one case for each class of pattern, and `Fp32.toBits_ofBits`. -/
theorem numPatternsAndValues : Obligations.NumPatternsAndValues := fun w =>
  ⟨Fp32.ofBits_inf, Fp32.ofBits_nan, fun hzero => ⟨_, _, Fp32.ofBits_subnormal hzero, subnormal_value _⟩,
    fun hzero hmax => ⟨_, _, Fp32.ofBits_normal hzero.ne' hmax.ne, normal_value _ _⟩, Fp32.toBits_ofBits w⟩

end Sys2Proof.Machine
end

section
/-! PROOFS. 30_encoding.md R100 to R104: the decoder and the encoder are inverse to each other, and what is no row of
the opcode map is illegal. -/

namespace Sys2Proof

/-! ### The fields of a command word (R100) -/

theorem word_eq_fields (w : Word) : w = fieldOpc w ++ fieldA w ++ w.extractLsb' 0 16 := by
  rw [fieldOpc, fieldA, BitVec.extractLsb'_append_extractLsb'_eq_extractLsb' (show 24 = 16 + 8 from rfl),
    BitVec.extractLsb'_append_extractLsb'_eq_extractLsb' (show 16 = 0 + 16 from rfl)]
  exact BitVec.extractLsb'_eq_self.symm

@[simp] theorem fieldA_commandWord (o : Opcode) (a : Byte) (b : BitVec 16) : fieldA (commandWord o a b) = a := by
  rw [fieldA, commandWord, BitVec.extractLsb'_append_eq_of_le (by decide)]
  exact BitVec.extractLsb'_append_eq_right

@[simp] theorem fieldHdr_commandWord (o : Opcode) (a : Byte) (hdr : BitVec 5) :
    fieldHdr (commandWord o a (0#11 ++ hdr)) = hdr := by
  rw [fieldHdr, commandWord, BitVec.extractLsb'_append_eq_of_add_le (by decide)]
  exact BitVec.extractLsb'_append_eq_right

@[simp] theorem operandU64_lowWord_highWord (v : DWord) : operandU64 (lowWord v) (highWord v) = v := by
  rw [operandU64, lowWord, highWord, BitVec.extractLsb'_append_extractLsb'_eq_extractLsb' (show 32 = 0 + 32 from rfl)]
  exact BitVec.extractLsb'_eq_self

@[simp] theorem lowWord_operandU64 (lo hi : Word) : lowWord (operandU64 lo hi) = lo :=
  BitVec.extractLsb'_append_eq_right

@[simp] theorem highWord_operandU64 (lo hi : Word) : highWord (operandU64 lo hi) = hi :=
  BitVec.extractLsb'_append_eq_left

/-! ### A word that matches a row (R103) -/

theorem Opcode.mem_all (o : Opcode) : o ∈ Opcode.all := by
  cases o <;> decide

@[simp] theorem Opcode.ofNumber_number (o : Opcode) : Opcode.ofNumber o.number = some o := by
  cases o <;> rfl

/-- A field that a row's mask covers has the pattern's value in every word that matches the row. -/
theorem field_of_matches {o : Opcode} {w : Word} (h : w &&& o.mask = o.pattern) {start len : Nat}
    (hmask : o.mask.extractLsb' start len = BitVec.allOnes len) :
    w.extractLsb' start len = o.pattern.extractLsb' start len := by
  rw [← h, BitVec.extractLsb'_and, hmask, BitVec.and_allOnes]

/-- Every mask covers `OPC`, so a word matches the row of its own opcode only. -/
theorem fieldOpc_of_matches {o : Opcode} {w : Word} (h : w &&& o.mask = o.pattern) : fieldOpc w = o.number :=
  calc fieldOpc w = fieldOpc o.pattern := field_of_matches h (by cases o <;> rfl)
    _ = o.number := by cases o <;> rfl

/-- The command word of a row with the operand fields of `w`. -/
def Opcode.withFieldsOf (o : Opcode) (w : Word) : Word :=
  match o with
  | .csrrd | .csrwr | .crcCheck => commandWord o (fieldA w) 0
  | .clsKind => commandWord o 0 ((0 : BitVec 11) ++ fieldHdr w)
  | .reset | .anchor | .detTest | .runDetect | .sliceBit | .sliceFrame | .clsFruit | .validate
  | .nextcomb | .correct | .runDecode => commandWord o 0 0

/-- A word that matches a row has nothing but the row's opcode and operand fields: no bit is ignored (R104). -/
theorem withFieldsOf_of_matches {o : Opcode} {w : Word} (h : w &&& o.mask = o.pattern) : o.withFieldsOf w = w := by
  have hopc := fieldOpc_of_matches h
  cases o with
  | csrrd | csrwr | crcCheck =>
    have hlow : w.extractLsb' 0 16 = 0 := field_of_matches h rfl
    rw [Opcode.withFieldsOf, commandWord, ← hopc, ← hlow, ← word_eq_fields]
  | clsKind =>
    have ha : fieldA w = 0 := field_of_matches h rfl
    have hzeros : w.extractLsb' 5 11 = 0 := field_of_matches h rfl
    have hlow : w.extractLsb' 0 16 = (0 : BitVec 11) ++ fieldHdr w := by
      rw [← hzeros]
      exact (BitVec.extractLsb'_append_extractLsb'_eq_extractLsb' (show 5 = 0 + 5 from rfl)).symm
    rw [Opcode.withFieldsOf, commandWord, ← hopc, ← ha, ← hlow, ← word_eq_fields]
  | _ =>
    rw [← BitVec.and_allOnes (x := w)]
    exact h.symm

/-! ### The decoder, one equation per outcome -/

/-- A word that matches a row is read as that row's command. -/
theorem decode_of_matches {o : Opcode} {w : Word} (h : w &&& o.mask = o.pattern) (ops : List Word) :
    decode (w :: ops) = takeOperands o w ops := by
  simp only [decode, fieldOpc_of_matches h, Opcode.ofNumber_number, h, if_true]

/-- A word that matches no row is illegal, whatever stands behind it (R104). -/
theorem decode_of_no_row {w : Word} (h : ∀ o ∈ Opcode.all, w &&& o.mask ≠ o.pattern) (ops : List Word) :
    decode (w :: ops) = .error (.illegalCommand w) := by
  rw [decode]
  split
  · rfl
  · exact if_neg (h _ (Opcode.mem_all _))

/-- A row's operands are taken or missing; its word is legal. -/
theorem takeOperands_ne_illegal (o : Opcode) (w v : Word) (ops : List Word) :
    takeOperands o w ops ≠ .error (.illegalCommand v) := by
  unfold takeOperands
  split <;> nofun

/-- What decodes begins with a word of some row, whose operands follow. -/
theorem matches_of_decode {words later : List Word} {i : Instr} (h : decode words = .ok (i, later)) :
    ∃ o w ops, words = w :: ops ∧ w &&& o.mask = o.pattern ∧ takeOperands o w ops = .ok (i, later) := by
  cases words with
  | nil => cases h
  | cons w ops =>
    by_cases hrow : ∃ o : Opcode, w &&& o.mask = o.pattern
    · obtain ⟨o, ho⟩ := hrow
      exact ⟨o, w, ops, rfl, ho, (decode_of_matches ho ops).symm.trans h⟩
    · rw [decode_of_no_row fun o _ ho => hrow ⟨o, ho⟩] at h
      cases h

/-! ### The encoder -/

/-- Every encoding has the shape of its row (R100, R101). -/
theorem encodeShape (i : Instr) : Laws.EncodeShape.Statement i := by
  cases i with
  | reset => exact Laws.EncodeShape.reset
  | csrrd csr => exact Laws.EncodeShape.csrrd csr
  | csrwr csr data => exact Laws.EncodeShape.csrwr csr data
  | anchor secs frac idx => exact Laws.EncodeShape.anchor secs frac idx
  | crcCheck length => exact Laws.EncodeShape.crcCheck length
  | detTest j n => exact Laws.EncodeShape.detTest j n
  | runDetect n => exact Laws.EncodeShape.runDetect n
  | sliceBit e0 e1 ref => exact Laws.EncodeShape.sliceBit e0 e1 ref
  | sliceFrame n => exact Laws.EncodeShape.sliceFrame n
  | clsKind hdr => exact Laws.EncodeShape.clsKind hdr
  | clsFruit n => exact Laws.EncodeShape.clsFruit n
  | validate => exact Laws.EncodeShape.validate
  | nextcomb x => exact Laws.EncodeShape.nextcomb x
  | correct => exact Laws.EncodeShape.correct
  | runDecode n => exact Laws.EncodeShape.runDecode n

/-- The operands of a command are read back from its own encoding. -/
theorem takeOperands_encode {i : Instr} {w : Word} {ops : List Word} (h : encode i = w :: ops) (later : List Word) :
    takeOperands i.opcode w (ops ++ later) = .ok (i, later) := by
  cases i with
  | csrrd _ | csrwr _ _ | crcCheck _ | clsKind _ | anchor _ _ _ =>
    cases h
    simp [Instr.opcode, takeOperands]
  | _ =>
    cases h
    rfl

/-- The operands of a row with the row's word and their fields are the encoding of the command they make. -/
theorem encode_of_takeOperands {o : Opcode} {w : Word} {ops later : List Word} {i : Instr}
    (h : takeOperands o w ops = .ok (i, later)) : encode i ++ later = o.withFieldsOf w :: ops := by
  unfold takeOperands at h
  split at h <;> cases h
  all_goals simp [encode, Opcode.withFieldsOf]

/-- Settles O6: the word of an encoding matches the command's row (`encodeShape`), whose operands are read back. -/
theorem decodeOfEncode : Obligations.DecodeOfEncode := by
  intro i later
  obtain ⟨w, ops, hencode, hmatch, -⟩ := encodeShape i
  rw [hencode, List.cons_append, decode_of_matches hmatch, takeOperands_encode hencode]

/-- Settles O7: a word that decodes has nothing but its row's opcode and operand fields. -/
theorem encodeOfDecode : Obligations.EncodeOfDecode := by
  intro words later i h
  obtain ⟨o, w, ops, rfl, hmatch, htake⟩ := matches_of_decode h
  rw [encode_of_takeOperands htake, withFieldsOf_of_matches hmatch]

/-- Settles O5: a word that matches a row is read as that row's command, so it is never called illegal. -/
theorem illegalIsMatchingNoRow : Obligations.IllegalIsMatchingNoRow := fun w ops =>
  ⟨fun h o _ hmatch => takeOperands_ne_illegal o w w ops ((decode_of_matches hmatch ops).symm.trans h),
    fun h => decode_of_no_row h ops⟩

/-- Settles O8: the written words are encodings, and `decodeOfEncode` reads them. -/
theorem writtenWordsDecode : Obligations.WrittenWordsDecode :=
  ⟨decodeOfEncode (.csrrd 0x60) [], decodeOfEncode (.csrwr 0x01 0x40000000) [],
    decodeOfEncode (.anchor 1700000000 0x3E800000 1000) [], decodeOfEncode (.crcCheck 112) [],
    decodeOfEncode (.detTest 10 300) [], decodeOfEncode (.sliceBit 0x40800000 0 0x40800000) [],
    decodeOfEncode (.clsKind 17) [], decodeOfEncode .validate [], decodeOfEncode (.nextcomb 3) [],
    decodeOfEncode (.runDecode 300) []⟩

end Sys2Proof
end

section
/-! PROOFS. 30_encoding.md R104: an illegal command word faults with 0xF0, an illegal operand with 0xF1. -/

namespace Sys2Proof.Machine

/-- A host call that does not decode is rejected and retired (R104). -/
theorem step_of_decode_error {s : State} {call : HostCall} {later : List HostCall} {e : DecodeError}
    (hc : s.calls = call :: later) (hd : decode call.words = .error e) : step s = retire (rejectCall e s) := by
  simp only [step, hc, hd]

/-- A running core faults on an illegal command word. -/
theorem rejectCall_illegal_running {s : State} (hr : s.Running) (w : Word) :
    rejectCall (.illegalCommand w) s = .next (faultedBy FaultCode.illegalCommand.byte s) := by
  have hf : s.status.fault = false := hr
  simp [rejectCall, hf, raiseFault_running hr]

section
variable {s : State} (hr : s.Running)
include hr

/-- CRC.CHECK of a length that is neither 56 nor 112 faults (R102). -/
theorem execCrcCheck_of_illegal {length : Byte} (h : lengthOperand length = none) :
    execCrcCheck length s = .next (faultedBy FaultCode.badOperand.byte s) := by
  rw [execCrcCheck, plainCommand_running hr, h, raiseFault_running hr]

/-- CSRRD of an unmapped number faults (R132). -/
theorem execCsrrd_of_unmapped {csr : Byte} (h : Csr.ofNumber csr = none) :
    execCsrrd csr s = .next (faultedBy FaultCode.badOperand.byte s) := by
  rw [execCsrrd, (readCsr_eq_none_iff csr s).mpr h, raiseFault_running hr]

/-- CSRWR of an unmapped number faults, whatever the data (R133). -/
theorem execCsrwr_of_unmapped {csr : Byte} (data : Word) (h : Csr.ofNumber csr = none) :
    execCsrwr csr data s = .next (faultedBy FaultCode.badOperand.byte s) := by
  simp only [execCsrwr, systemCommand_running hr, writeCsr, h, raiseFault_running hr]

end

/-- Settles O4: a word of no row decodes to no command (`decode_of_no_row`) and is rejected, and each illegal operand
is met by its command's check. -/
theorem illegalEncodingsFault : Obligations.IllegalEncodingsFault := by
  refine ⟨fun s w ops window later hr hcalls hrow => ?_, by decide, fun s a hr hshort hlong => ?_,
    fun s a data hr h => ⟨execCsrrd_of_unmapped hr h, execCsrwr_of_unmapped hr data h⟩⟩
  · rw [step_of_decode_error hcalls (decode_of_no_row hrow ops), rejectCall_illegal_running hr, retire, retireCall]
    simp only [faultedBy, hcalls, List.tail_cons, FaultCode.byte]
  · exact execCrcCheck_of_illegal hr (by rw [lengthOperand, if_neg hshort, if_neg hlong])

end Sys2Proof.Machine
end

section
/-! PROOFS. 30_encoding.md R108 and 41_crc_parity.md R153: a flip changes the syndrome by the bit's table entry, and
every frame that is accepted or corrected has syndrome 0. -/

namespace Sys2Proof.Machine

/-! ### The syndrome after a flip -/

theorem crcStep_xor (fb : Vector Byte 14) (acc x : Word24) (p : Fin 112 × Word24) :
    crcStep fb (acc ^^^ x) p = crcStep fb acc p ^^^ x := by
  unfold crcStep
  split
  · rw [BitVec.xor_assoc, BitVec.xor_comm x, ← BitVec.xor_assoc]
  · rfl

theorem foldl_crcStep_xor (fb : Vector Byte 14) (acc x : Word24) (l : List (Fin 112 × Word24)) :
    l.foldl (crcStep fb) (acc ^^^ x) = l.foldl (crcStep fb) acc ^^^ x :=
  List.foldl_hom (· ^^^ x) fun _ _ => crcStep_xor fb _ x _

/-- A flip does not touch the rounds of the other bits. -/
theorem crcStep_flipFrameBit_of_ne (fb : Vector Byte 14) {k : Fin 112} (acc : Word24) {p : Fin 112 × Word24}
    (h : k ≠ p.1) : crcStep (flipFrameBit fb k) acc p = crcStep fb acc p := by
  simp [crcStep, frameBit_flipFrameBit, h]

/-- In the round of the flipped bit its entry is added once more or once less, which is the same. -/
theorem crcStep_flipFrameBit_self (fb : Vector Byte 14) (k : Fin 112) (acc e : Word24) :
    crcStep (flipFrameBit fb k) acc (k, e) = crcStep fb acc (k, e) ^^^ e := by
  cases hbit : frameBit fb k <;> simp [crcStep, frameBit_flipFrameBit, hbit]

/-- Over a list that has each bit at most once, a flip adds the entry of its bit. -/
theorem foldl_crcStep_flipFrameBit (fb : Vector Byte 14) {k : Fin 112} {e : Word24} {l : List (Fin 112 × Word24)}
    (hnodup : (l.map (·.1)).Nodup) (hmem : (k, e) ∈ l) (acc : Word24) :
    l.foldl (crcStep (flipFrameBit fb k)) acc = l.foldl (crcStep fb) acc ^^^ e := by
  induction l generalizing acc with
  | nil => exact absurd hmem List.not_mem_nil
  | cons p l ih =>
    rw [List.map_cons, List.nodup_cons] at hnodup
    obtain ⟨hfresh, hnodup⟩ := hnodup
    rw [List.foldl_cons, List.foldl_cons]
    rcases List.mem_cons.mp hmem with rfl | hmem
    · have hrest : ∀ acc, l.foldl (crcStep (flipFrameBit fb k)) acc = l.foldl (crcStep fb) acc := fun acc =>
        List.foldl_ext _ _ acc fun acc p hp =>
          crcStep_flipFrameBit_of_ne fb acc fun hk => hfresh (List.mem_map.mpr ⟨p, hp, hk.symm⟩)
      rw [hrest, crcStep_flipFrameBit_self, foldl_crcStep_xor]
    · rw [crcStep_flipFrameBit_of_ne fb acc fun hk => hfresh (List.mem_map.mpr ⟨_, hmem, hk⟩), ih hnodup hmem]

/-- The rounds of the loop of R150: each frame bit of the kind with its table entry. -/
theorem zip_frameIndices_tableSegment (table : Vector Word24 112) (kind : FrameKind) :
    (frameIndices kind).zip (tableSegment table kind) = (List.finRange (kindLen kind)).map fun i =>
      (i.castLE (kindLen_le kind), table[i.val + (112 - kindLen kind)]'(by have := kindLen_le kind; omega)) := by
  rw [frameIndices_eq_map, tableSegment_eq_map, List.zip_map']

/-- Flipping a frame bit of the kind changes the syndrome by the bit's table entry (R153). -/
theorem crc_flipFrameBit (table : Vector Word24 112) (kind : FrameKind) (fb : Vector Byte 14) (i : Fin (kindLen kind)) :
    crc table kind (flipFrameBit fb (i.castLE (kindLen_le kind))) =
      crc table kind fb ^^^ table[i.val + (112 - kindLen kind)]'(by have := kindLen_le kind; omega) := by
  rw [crc, crc, zip_frameIndices_tableSegment]
  refine foldl_crcStep_flipFrameBit fb ?_ (List.mem_map.mpr ⟨i, List.mem_finRange i, rfl⟩) 0
  rw [List.map_map]
  exact (List.nodup_finRange _).map (Fin.castLE_injective (kindLen_le kind))

/-- The corrector's table lookups give the syndrome of the flipped Long frame (R243). -/
theorem crc_flipBits (table : Vector Word24 112) (fb : Vector Byte 14) (ps : List (Fin 112)) :
    crc table .long (flipBits fb ps) = flippedSyndrome table (crc table .long fb) ps := by
  induction ps generalizing fb with
  | nil => rfl
  | cons p ps ih =>
    have hflip : crc table .long (flipFrameBit fb p) = crc table .long fb ^^^ table[p] :=
      crc_flipFrameBit table .long fb p
    exact (ih (flipFrameBit fb p)).trans (by rw [hflip]; rfl)

/-! ### The corrector and the validator accept syndrome 0 only -/

/-- A single solution makes the syndrome 0, unless the search was given it (R243). -/
theorem flippedSyndrome_of_search_single {table : Vector Word24 112} {syndrome : Word24} {positions : List (Fin 112)}
    {sol : Option Nat} {masks : List Nat} {m : Nat} (h : search table syndrome positions sol masks = .single m) :
    sol = some m ∨ flippedSyndrome table syndrome (selected m positions) = 0 := by
  induction masks generalizing sol with
  | nil =>
    cases sol with
    | none => cases h
    | some _ =>
      cases h
      exact .inl rfl
  | cons c masks ih =>
    by_cases hzero : flippedSyndrome table syndrome (selected c positions) = 0
    · cases sol with
      | none =>
        simp only [search, hzero, if_true] at h
        rcases ih h with hc | hm
        · cases hc
          exact .inr hzero
        · exact .inr hm
      | some _ => simp [search, hzero] at h
    · cases sol <;> exact ih (by simpa only [search, hzero, if_false] using h)

/-- R108: SYNDROME is 0, and so is the syndrome of the frame in the registers. -/
def SyndromeZero (s : State) : Prop := s.syndrome = 0 ∧ frameCrc s.kind s = 0

/-- A corrector that answers NoErrorPresent or SingleSolutionFound found syndrome 0, or a mask that makes it 0 (R243). -/
theorem correctFrame_accepts {s : State} (h : (correctFrame s).1 = .noErrorPresent ∨ (correctFrame s).1 = .single) :
    (frameCrc .long s = 0 ∧ (correctFrame s).2 = { s with syndrome := 0 }) ∨
    ∃ m, flippedSyndrome s.config.parityTable (frameCrc .long s) (selected m (recordedPositions s)) = 0 ∧
      (correctFrame s).2 = { s with fb := flipBits s.fb (selected m (recordedPositions s)), syndrome := 0 } := by
  revert h
  unfold correctFrame
  simp only
  split
  · rename_i hzero
    exact fun _ => .inl ⟨hzero, by rw [hzero]⟩
  split
  · simp
  split
  · simp
  · simp
  · rename_i hsearch
    rcases flippedSyndrome_of_search_single hsearch with hm | hm
    · cases hm
    · exact fun _ => .inr ⟨_, hm, rfl⟩

/-- Either way it leaves a Long frame with syndrome 0. -/
theorem correctFrame_syndromeZero {s : State} (hlong : s.kind = .long)
    (h : (correctFrame s).1 = .noErrorPresent ∨ (correctFrame s).1 = .single) : SyndromeZero (correctFrame s).2 := by
  rcases correctFrame_accepts h with ⟨hzero, hs⟩ | ⟨m, hzero, hs⟩ <;> rw [hs]
  · exact ⟨rfl, by rw [← hlong] at hzero; exact hzero⟩
  · refine ⟨rfl, ?_⟩
    rw [frameCrc, hlong]
    exact (crc_flipBits _ _ _).trans hzero

/-- The validator accepts from the corrector when that found syndrome 0 or made it 0 (R220 step 6). -/
theorem correction_of_verdict {c : Correction}
    (h : correctionVerdict c = .accepted ∨ correctionVerdict c = .correctedAndAccepted) :
    c = .noErrorPresent ∨ c = .single := by
  revert h
  cases c <;> decide

/-- The validator accepts a frame, corrected or not, with syndrome 0 only (R220). -/
theorem validateFrame_syndromeZero {s : State}
    (h : (validateFrame s).1 = .accepted ∨ (validateFrame s).1 = .correctedAndAccepted) :
    SyndromeZero (validateFrame s).2 := by
  revert h
  unfold validateFrame
  simp only
  split
  · simp
  split
  · simp
  split
  · simp
  split
  · rename_i hzero
    exact fun _ => ⟨hzero, hzero⟩
  split
  · simp
  split
  · simp
  · rename_i hshort _
    have hlong : s.kind = .long := by
      cases hk : s.kind
      · exact absurd hk hshort
      · rfl
    exact fun h => correctFrame_syndromeZero (s := { s with syndrome := frameCrc s.kind s }) hlong
      (correction_of_verdict h)

/-! ### The three commands -/

/-- The outcomes 0x28 and 0x29 are those of a clean and of a corrected frame (R244). -/
theorem correction_of_code {c : Correction} (h : c.code.byte = 0x28 ∨ c.code.byte = 0x29) :
    c = .noErrorPresent ∨ c = .single := by
  revert h
  cases c <;> decide

/-- The outcomes 0x10 and 0x11 are those of an accepted frame (R106). -/
theorem accepted_of_byte {code : Code} (h : code.byte = 0x10 ∨ code.byte = 0x11) :
    code = .accepted ∨ code = .correctedAndAccepted := by
  revert h
  cases code <;> decide

/-- A packet is counted for an accepted frame only (R262). -/
theorem accepted_of_packetCount {code : Code} (h : packetCount code ≠ 0) :
    code = .accepted ∨ code = .correctedAndAccepted := by
  revert h
  cases code <;> decide

/-- A running core that stops a command has faulted. -/
theorem Stopped.faulted {s t : State} {codes : List FaultCode} (hr : s.Running) (h : Stopped s t codes) :
    ∃ c ∈ codes, t = faultedBy c.byte s := by
  rcases h with ⟨hf, -⟩ | ⟨-, h⟩
  · exact absurd (hf.symm.trans hr) (by decide)
  · exact h

theorem execCorrect_syndromeZero {s t : State} (hr : s.Running) (h : execCorrect s = .next t)
    (ht : t.outcome = 0x28 ∨ t.outcome = 0x29) : SyndromeZero t := by
  rcases execCorrect_next h with hstop | ⟨-, hlong, rfl⟩
  · obtain ⟨c, hc, rfl⟩ := hstop.faulted hr
    cases List.mem_singleton.mp hc
    exact absurd ht (show ¬ ((0xF1 : Byte) = 0x28 ∨ (0xF1 : Byte) = 0x29) by decide)
  · have hclean := correctFrame_syndromeZero hlong (correction_of_code ht)
    rw [(correctFrame_frame s).1] at hclean
    exact hclean

theorem execValidate_syndromeZero {s t : State} (hr : s.Running) (h : execValidate s = .next t)
    (ht : t.outcome = 0x10 ∨ t.outcome = 0x11) : SyndromeZero t := by
  rcases execValidate_next h with hstop | ⟨-, rfl⟩
  · obtain ⟨c, hc, -⟩ := hstop.faulted hr
    exact absurd hc List.not_mem_nil
  · have hclean := validateFrame_syndromeZero (accepted_of_byte ht)
    rw [validateFrame_frame] at hclean
    exact hclean

/-- A RUN.DECODE that counts a packet has decoded a burst whose verdict is an accepted frame (R260). -/
theorem decodeBurst_of_produced {s t : State} {n : Word} (hr : s.Running) (hc : s.status.cfgValid = true)
    (hp : s.Presents n) (h : execRunDecode n s = .next t) (ht : t.produced = 1) :
    ∃ w i ref c v, decodeBurst w i ref (clearCounts s) = some v ∧ t = finishDecode c v ∧ packetCount v.1 ≠ 0 := by
  rw [execRunDecode, windowCommand_running hr hp] at h
  rcases configured_next hr h with ⟨hc', -⟩ | ⟨-, h⟩
  · exact absurd (hc.symm.trans hc') (by decide)
  split at h
  · cases h
  · cases h
    simp at ht
  · cases h
    simp at ht
  · obtain ⟨v, hv, rfl⟩ := withRead_next h
    have hproduced : BitVec.ofNat 32 (packetCount v.1) = 1 := ht
    refine ⟨_, _, _, _, v, hv, rfl, fun hzero => ?_⟩
    rw [hzero] at hproduced
    cases hproduced

/-- Ending RUN.DECODE writes counts and the outcome, and leaves the frame and SYNDROME (R260). -/
theorem SyndromeZero.finishDecode {v : Code × State} (h : SyndromeZero v.2) (c : Nat) :
    SyndromeZero (finishDecode c v) := h

theorem execRunDecode_syndromeZero {s t : State} {n : Word} (hr : s.Running) (hc : s.status.cfgValid = true)
    (hp : s.Presents n) (h : execRunDecode n s = .next t) (ht : t.produced = 1) : SyndromeZero t := by
  obtain ⟨w, i, ref, c, v, hv, rfl, hcount⟩ := decodeBurst_of_produced hr hc hp h ht
  obtain ⟨u, hit, -, -, rfl, -⟩ := decodeBurst_spec hv
  cases hit with
  | some _ => exact absurd rfl hcount
  | none =>
    have hclean := validateFrame_syndromeZero (s := setFruited false u) (accepted_of_packetCount hcount)
    exact SyndromeZero.finishDecode (v := judgeFrame none u) hclean c

/-- Settles O37: each of the three commands leaves the registers of a corrector or a validator that answers these
outcomes for syndrome 0 only; a single solution is one by `crc_flipBits`. -/
theorem acceptedFramesHaveSyndromeZero : Obligations.AcceptedFramesHaveSyndromeZero := fun _ _ hr =>
  ⟨execCorrect_syndromeZero hr, execValidate_syndromeZero hr,
    fun _ hc hp => execRunDecode_syndromeZero hr hc hp⟩

end Sys2Proof.Machine
end

section
/-! PROOFS. 40_system.md R131 to R134: RESET, CSRRD, CSRWR and ANCHOR. -/

namespace Sys2Proof

/-- A command word with a byte in field `A` is its row's pattern with that byte shifted into place (R100). -/
theorem commandWord_eq_pattern_or (o : Opcode) (a : Byte) :
    commandWord o a 0 = o.pattern ||| (a.setWidth 32 <<< 16) := by
  apply BitVec.eq_of_getLsbD_eq
  intro i hi
  simp only [commandWord, Opcode.pattern, BitVec.getLsbD_or, BitVec.getLsbD_append, BitVec.getLsbD_shiftLeft,
    BitVec.getLsbD_setWidth]
  by_cases hb : i < 16
  · simp [hb]
  · by_cases ha : i - 16 < 8
    · have hwidth : i - 16 < 32 := by omega
      simp [hb, ha, hi, hwidth]
    · simp [hb, ha, BitVec.getLsbD_of_ge a (i - 16) (by omega)]

/-- Of the words with the opcode of RESET only its pattern matches a row (R103, R131). -/
theorem eq_reset_of_matches {o : Opcode} {w : Word} (hmatch : w &&& o.mask = o.pattern) (hopc : fieldOpc w = 0x01) :
    w = 0x01000000 := by
  have hnumber : o.number = Opcode.reset.number := (fieldOpc_of_matches hmatch).symm.trans hopc
  have hreset : o = .reset := by simpa [hnumber] using (Opcode.ofNumber_number o).symm
  rw [hreset] at hmatch
  exact (withFieldsOf_of_matches hmatch).symm

end Sys2Proof

namespace Sys2Proof.Machine

/-! ### What CSRWR stores (R133) -/

section
variable {r r' : Csr} {data : Word} {s : State}

/-- A word within a register's range is kept by its type (R22). -/
theorem ofNat_ofNat_toNat {n : Nat} [NeZero n] (h : data.toNat < n) :
    BitVec.ofNat 32 (Fin.ofNat n data.toNat).val = data := by
  rw [Fin.val_ofNat, Nat.mod_eq_of_lt h, BitVec.ofNat_toNat, BitVec.setWidth_eq]

/-- A register reads the legal data stored in it: its type holds every legal value (R22). -/
theorem Csr.read_store_self (hlegal : r.legal data = true) : r.read (r.store data s) = data := by
  cases r with
  | lcbLimit | lcbTotal => exact ofNat_ofNat_toNat (Nat.lt_succ_of_le (of_decide_eq_true hlegal))
  | lcbPos n =>
    have hpos : data.toNat < 112 := Nat.lt_succ_of_le (of_decide_eq_true hlegal)
    rw [Csr.read, Csr.store, Fin.getElem_fin, Vector.getElem_set_self, ofNat_ofNat_toNat hpos]
  | fb n =>
    have hbyte : data.toNat < 2 ^ 8 := Nat.lt_succ_of_le (of_decide_eq_true hlegal)
    rw [Csr.read, Csr.store, Fin.getElem_fin, Vector.getElem_set_self]
    exact BitVec.eq_of_toNat_eq (by simp only [BitVec.toNat_setWidth]; omega)
  | kind =>
    have hbit : data.toNat ≤ 1 := of_decide_eq_true hlegal
    rw [Csr.read, Csr.store]
    by_cases hzero : data = 0
    · rw [if_pos hzero, hzero, kindWord]
    · rw [if_neg hzero, kindWord]
      bv_omega
  | threshRatio | longMask | nocorrMask | sliceLow | sliceHigh | sliceStrong | spreadRatio | refLevel
  | burstOffset => rfl
  | _ => cases hlegal

theorem store_fb_getElem {n : Fin 14} (hne : r ≠ .fb n) : (r.store data s).fb[n] = s.fb[n] := by
  cases r with
  | fb m => exact Vector.getElem_set_ne m.isLt n.isLt fun h => hne (congrArg Csr.fb (Fin.ext h))
  | _ => rfl

theorem store_lcbPos_getElem {n : Fin 24} (hne : r ≠ .lcbPos n) : (r.store data s).lcbPos[n] = s.lcbPos[n] := by
  cases r with
  | lcbPos m => exact Vector.getElem_set_ne m.isLt n.isLt fun h => hne (congrArg Csr.lcbPos (Fin.ext h))
  | _ => rfl

/-- Every other register reads as before, but for MSG_TYPE, which is a view of FB0 (R41). -/
theorem Csr.read_store_of_ne (hne : r' ≠ r) (hview : r' = .msgType → r ≠ .fb 0) :
    r'.read (r.store data s) = r'.read s := by
  suffices h : r'.read (r.store data s) = if r' = r then r'.read (r.store data s) else r'.read s from
    h.trans (if_neg hne)
  cases r' with
  | fb n => rw [if_neg hne, Csr.read, Csr.read, store_fb_getElem hne.symm]
  | lcbPos n => rw [if_neg hne, Csr.read, Csr.read, store_lcbPos_getElem hne.symm]
  | msgType =>
    have hfb0 : (r.store data s).fb[0] = s.fb[0] := store_fb_getElem (n := 0) (hview rfl)
    rw [if_neg hne, Csr.read, Csr.read, Machine.msgType, Machine.msgType, hfb0]
  | _ => cases r <;> rfl

end

/-- The response is no register (R105). -/
@[simp] theorem Csr.read_respond (r : Csr) (code : Byte) (data : Word) (s : State) :
    r.read (respond code data s) = r.read s := by
  cases r <;> rfl

/-- CFG_VALID is a bit of STATUS and of no other register (R45). -/
theorem Csr.read_setCfgValid {r : Csr} (h : r ≠ .status) (s : State) : r.read (setCfgValid s) = r.read s := by
  cases r with
  | status => exact absurd rfl h
  | _ => rfl

/-- STATUS is read-only (R21). -/
theorem Csr.ne_status_of_legal {r : Csr} {data : Word} (h : r.legal data = true) : r ≠ .status := by
  rintro rfl
  cases h

/-- The number of THRESH_RATIO is its own (R21). -/
theorem Csr.eq_threshRatio_iff {csr : Byte} {r : Csr} (hn : Csr.ofNumber csr = some r) :
    r = .threshRatio ↔ csr = 0x01 := by
  rw [← Csr.number_of_ofNumber hn]
  exact ⟨congrArg Csr.number, fun h => Csr.number_injective (r' := .threshRatio) h⟩

/-- The registers behind a legal CSRWR: the store, and CFG_VALID behind a store to THRESH_RATIO (R133). -/
def Csr.written (r : Csr) (data : Word) (s : State) : State :=
  if r = .threshRatio then setCfgValid (r.store data s) else r.store data s

theorem execCsrwr_of_legal {s : State} (hr : s.Running) {csr : Byte} {r : Csr} {data : Word}
    (hn : Csr.ofNumber csr = some r) (hlegal : r.legal data = true) :
    execCsrwr csr data s = .next (respondOk (r.written data s)) := by
  simp only [execCsrwr, systemCommand_running hr, writeCsr, hn, hlegal, if_true, Csr.written]

theorem Csr.read_written {r' : Csr} (h : r' ≠ .status) (r : Csr) (data : Word) (s : State) :
    r'.read (r.written data s) = r'.read (r.store data s) := by
  rw [Csr.written]
  split
  · exact Csr.read_setCfgValid h _
  · rfl

theorem Csr.written_status (r : Csr) (data : Word) (s : State) : (r.written data s).status =
    if r = .threshRatio then { s.status with cfgValid := true } else s.status := by
  rw [Csr.written, store_frame]
  split <;> rfl

theorem Csr.written_config (r : Csr) (data : Word) (s : State) : (r.written data s).config = s.config := by
  rw [Csr.written, store_frame]
  split <;> rfl

theorem Csr.written_calls (r : Csr) (data : Word) (s : State) : (r.written data s).calls = s.calls := by
  rw [Csr.written, store_frame]
  split <;> rfl

/-- Settles O11: the response and CFG_VALID are in no register but STATUS, so every other register reads as behind the
store (`Csr.read_store_self`, `Csr.read_store_of_ne`). -/
theorem csrwrStoresLegalData : Obligations.CsrwrStoresLegalData := by
  intro s csr r data hr hn hlegal
  refine ⟨_, execCsrwr_of_legal hr hn hlegal, ?_, fun r' hne hstatus hview => ?_, ?_, rfl,
    r.written_config data s, r.written_calls data s⟩
  · rw [readCsr, hn, Option.map_some, respondOk, Csr.read_respond, Csr.read_written (Csr.ne_status_of_legal hlegal),
      Csr.read_store_self hlegal]
  · rw [respondOk, Csr.read_respond, Csr.read_written hstatus, Csr.read_store_of_ne hne hview]
  · simp only [← Csr.eq_threshRatio_iff hn]
    exact r.written_status data s

/-! ### RESET (R131) -/

/-- A faulted core refuses an illegal command word (R284). -/
theorem rejectCall_illegal_faulted {s : State} (hf : s.status.fault = true) (w : Word) :
    rejectCall (.illegalCommand w) s = .next (refuse s) :=
  if_pos hf

/-- Settles O2: a word with the opcode of RESET that is not RESET matches no row (`eq_reset_of_matches`), so it decodes
to no command and is rejected. -/
theorem resetCommand : Obligations.ResetCommand := by
  refine ⟨rfl, fun s => rfl, fun s w ops window later hopc hne hcalls => ?_⟩
  have hrow : ∀ o ∈ Opcode.all, w &&& o.mask ≠ o.pattern := fun o _ hmatch =>
    hne (eq_reset_of_matches hmatch hopc)
  rw [step_of_decode_error hcalls (decode_of_no_row hrow ops)]
  by_cases hf : s.status.fault = true
  · rw [rejectCall_illegal_faulted hf, if_pos hf, retire, retireCall]
    simp [hcalls, refuse, respond, Code.byte]
  · have hr : s.Running := by simpa [State.Running] using hf
    rw [rejectCall_illegal_running hr, if_neg hf, retire, retireCall]
    simp [hcalls, faultedBy, FaultCode.byte]

/-! ### CSRRD (R132) -/

/-- Settles O10: CSRRD has no check of the faulted state, and its fault entry tells the two apart. -/
theorem csrrdCommand : Obligations.CsrrdCommand := by
  intro s csr
  refine ⟨congrArg (fun w => [w]) (commandWord_eq_pattern_or .csrrd csr), fun v hv => ?_, fun hnone hr => ?_,
    fun hnone hf => ?_⟩
  · simp only [exec, execCsrrd, hv]
    rfl
  · exact execCsrrd_of_unmapped hr ((readCsr_eq_none_iff csr s).mp hnone)
  · have hf : s.status.fault = true := by simpa [State.Running] using hf
    simp only [exec, execCsrrd, hnone, raiseFault_faulted hf]
    rfl

/-! ### ANCHOR (R134) -/

theorem execAnchor_of_legal {s : State} (hr : s.Running) (secs idx : DWord) {frac : Word}
    (h : legalFraction frac = true) : execAnchor secs frac idx s = .next (respondOk
      (setAnchorValid { s with anchorSecs := secs, anchorFrac := frac, anchorIdx := idx })) := by
  rw [execAnchor, systemCommand_running hr, if_pos h]

theorem execAnchor_of_illegal {s : State} (hr : s.Running) (secs idx : DWord) {frac : Word}
    (h : ¬ legalFraction frac = true) :
    execAnchor secs frac idx s = .next (faultedBy FaultCode.badOperand.byte s) := by
  rw [execAnchor, systemCommand_running hr, if_neg h, raiseFault_running hr]

/-- Settles O14: the legal fractions are the patterns that `legalFraction_iff` gives. -/
theorem anchorCommand : Obligations.AnchorCommand := by
  intro s secs idx frac hr
  refine ⟨?_, fun hfrac => ?_, fun hone hzero => ?_⟩
  · rw [encode, lowWord_eq, lowWord_eq, highWord_eq, highWord_eq]
    rfl
  · have hlegal : legalFraction frac = true :=
      legalFraction_iff.mpr (hfrac.imp_right fun h => congrArg BitVec.toNat h)
    exact execAnchor_of_legal hr secs idx hlegal
  · have hillegal : ¬ legalFraction frac = true := by
      rw [legalFraction_iff]
      bv_omega
    exact execAnchor_of_illegal hr secs idx hillegal

end Sys2Proof.Machine
end

section
/-! PROOFS. 41_crc_parity.md R151 and R153: CRC.CHECK, and the syndrome as a linear function of the frame contents. -/

namespace Sys2Proof.Machine

/-! ### CRC.CHECK (R151) -/

/-- CRC.CHECK of a legal length writes SYNDROME and the result registers of an answer without counts (R102, R151). -/
theorem execCrcCheck_of_legal {s : State} (hr : s.Running) {length : Byte} {kind : FrameKind}
    (h : lengthOperand length = some kind) : execCrcCheck length s = .next
      (endedWith 0x00 (counted 0 0 { s with syndrome := crc s.config.parityTable kind s.fb })) := by
  rw [execCrcCheck, plainCommand_running hr, h]
  rfl

/-- Settles O15: 56 and 112 are the two legal lengths (`execCrcCheck_of_legal`), and every other one is illegal. -/
theorem crcCheckCommand : Obligations.CrcCheckCommand := by
  intro s length hr
  refine ⟨congrArg (fun w => [w]) (commandWord_eq_pattern_or .crcCheck length), ?_⟩
  by_cases hshort : length = 0x38
  · rw [if_pos hshort]
    exact execCrcCheck_of_legal hr (if_pos hshort)
  · by_cases hlong : length = 0x70
    · rw [if_neg hshort, if_pos hlong]
      exact execCrcCheck_of_legal hr (by rw [lengthOperand, if_neg hshort, if_pos hlong])
    · rw [if_neg hshort, if_neg hlong]
      exact execCrcCheck_of_illegal hr (by rw [lengthOperand, if_neg hshort, if_neg hlong])

/-! ### Linearity (R153) -/

/-- A frame bit of the bytewise exclusive or of two frames. -/
@[simp] theorem frameBit_zipWith_xor (f e : Vector Byte 14) (k : Fin 112) :
    frameBit (Vector.zipWith (· ^^^ ·) f e) k = (frameBit f k ^^ frameBit e k) := by
  rw [frameBit, Vector.getElem_zipWith, BitVec.getLsbD_xor, frameBit, frameBit]

/-- One round over the exclusive or of two frames is the two frames' rounds: an entry added in both cancels. -/
theorem crcStep_zipWith_xor (f e : Vector Byte 14) (a b : Word24) (p : Fin 112 × Word24) :
    crcStep (Vector.zipWith (· ^^^ ·) f e) (a ^^^ b) p = crcStep f a p ^^^ crcStep e b p := by
  cases hf : frameBit f p.1 <;> cases he : frameBit e p.1 <;>
    simp only [crcStep, frameBit_zipWith_xor, hf, he, Bool.xor_false, Bool.xor_true, Bool.not_false, Bool.not_true,
      Bool.false_eq_true, if_true, if_false]
  case false.true => exact BitVec.xor_assoc a b p.2
  case true.false => rw [BitVec.xor_assoc, BitVec.xor_comm b, BitVec.xor_assoc]
  case true.true => rw [BitVec.xor_assoc, BitVec.xor_comm p.2, BitVec.xor_assoc, BitVec.xor_self, BitVec.xor_zero]

/-- The syndrome of the bytewise exclusive or of two frames is the exclusive or of their syndromes (R153). -/
theorem crc_zipWith_xor (table : Vector Word24 112) (kind : FrameKind) (f e : Vector Byte 14) :
    crc table kind (Vector.zipWith (· ^^^ ·) f e) = crc table kind f ^^^ crc table kind e :=
  List.foldl_hom₂ _ (· ^^^ ·) (crcStep f) (crcStep e) _ 0 0 fun a b p => (crcStep_zipWith_xor f e a b p).symm

/-- Flipping frame bits of the kind one after another changes the syndrome by the entry of each (R153). -/
theorem crc_flipBits_map_castLE (table : Vector Word24 112) (kind : FrameKind) (fb : Vector Byte 14)
    (ps : List (Fin (kindLen kind))) :
    crc table kind (flipBits fb (ps.map (Fin.castLE (kindLen_le kind)))) =
      ps.foldl (fun acc p => acc ^^^ table[p.val + (112 - kindLen kind)]'(by have := kindLen_le kind; omega))
        (crc table kind fb) := by
  induction ps generalizing fb with
  | nil => rfl
  | cons p ps ih =>
    rw [List.map_cons, List.foldl_cons, ← crc_flipFrameBit]
    exact ih _

/-- Settles O17: linearity is `crc_zipWith_xor`; a Long frame's flips are the corrector's (`crc_flipBits`), a Short
frame's are positions below 56 (`crc_flipBits_map_castLE`). -/
theorem crcIsLinear : Obligations.CrcIsLinear :=
  ⟨crc_zipWith_xor, crc_flipBits, fun table => crc_flipBits_map_castLE table .short⟩

end Sys2Proof.Machine
end

section
/-! PROOFS. 42_burst_detector.md R161 to R168: the detector test as the first failing step, its refinement, and what of
the window it reads. -/

namespace Sys2Proof.Machine

/-! ### Each step as a property of the window -/

/-- A search whose indices are in the window finds no bad sample exactly when every named sample is good. -/
theorem anySample_eq_false_iff {w : Window} {base : Nat} {bad : Fp32 → Bool} {ds : List Nat} {b : Bool}
    (h : anySample w base bad ds = some b) :
    b = false ↔ ∀ d ∈ ds, ∃ x, winS w (base + d) = some x ∧ bad x = false := by
  cases b with
  | false => exact iff_of_true rfl (anySample_false h)
  | true =>
    obtain ⟨d, hd, x, hx, hbad⟩ := anySample_true h
    refine iff_of_false (by simp) fun hgood => ?_
    obtain ⟨y, hy, hygood⟩ := hgood d hd
    rw [hx, Option.some.injEq] at hy
    rw [hy, hygood] at hbad
    cases hbad

theorem mem_silenceOffsets {spc d : Nat} : d ∈ silenceOffsets spc ↔
    (3 * spc ≤ d ∧ d ≤ 6 * spc) ∨ (10 * spc ≤ d ∧ d ≤ 15 * spc) := by
  simp only [silenceOffsets, List.mem_append, List.mem_range'_1]
  omega

section
variable {s : State} {w : Window} {j i : Nat} {level x next avg : Fp32} {b : Bool}

theorem fires_iff (hlevel : winR w j = some level) (hx : winS w j = some x) :
    Fires s w j ↔ x.gt (level.mul (Fp32.ofBits s.threshRatio)) = true := by
  simp [Fires, hlevel, hx]

theorem stillRising_iff (hx : winS w j = some x) (hnext : winS w (j + 1) = some next) :
    StillRising w j ↔ next.gt x = true := by
  simp [StillRising, hx, hnext]

theorem pulsesExceed_iff (hlevel : winR w j = some level)
    (h : anySample w j (fun x => !x.gt (level.mul (Fp32.ofBits s.threshRatio)))
      [2 * s.config.spc, 7 * s.config.spc, 9 * s.config.spc] = some b) :
    PulsesExceed s w j ↔ b = false := by
  rw [anySample_eq_false_iff h]
  simp only [PulsesExceed, hlevel, Option.some.injEq, exists_eq_left', Bool.not_eq_false']

theorem silenceHolds_iff (h : anySample w i (fun x => x.gt (avg.div (Fp32.ofBits s.threshRatio)))
      (silenceOffsets s.config.spc) = some b) :
    SilenceHolds s w i avg ↔ b = false := by
  simp only [anySample_eq_false_iff h, mem_silenceOffsets, SilenceHolds]

theorem spreadHolds_iff (h : anySample w i (fun p => p.lt (avg.div (Fp32.ofBits s.spreadRatio)) ||
        p.gt (avg.mul (Fp32.ofBits s.spreadRatio))) (pulseOffsets s.config.spc) = some b) :
    SpreadHolds s w i avg ↔ b = false := by
  simp only [anySample_eq_false_iff h, SpreadHolds, Bool.or_eq_false_iff]

end

/-! ### The test is its first failing step -/

section
variable (s : State) (w : Window)

open Classical in
/-- Steps 6 and 7 at offset `i` with mean `avg`, as properties of the window (R166, R167). -/
noncomputable def refinedVerdict (i : Nat) (avg : Fp32) : DetResult :=
  if ¬ SilenceHolds s w i avg then .reject .spaceViolated
  else if ¬ SpreadHolds s w i avg then .reject .spreadViolated
  else .accept i avg.toBits

open Classical in
/-- Steps 1 to 7 on candidate `j`, which refinement moves to `i` with mean `avg` (R162 to R168). -/
noncomputable def verdict (j i : Nat) (avg : Fp32) : DetResult :=
  if ¬ Fires s w j then .reject .belowThreshold
  else if StillRising w j then .reject .stillRising
  else if ¬ PulsesExceed s w j then .reject .pulseMissing
  else refinedVerdict s w i avg

variable {s w}

theorem avgPeak_of_lt {spc a : Nat} (h : a + 9 * spc < w.length) : ∃ avg, avgPeak spc w a = some avg := by
  obtain ⟨c, hc⟩ := corr_of_lt h
  exact ⟨c.div Fp32.four, by simp [avgPeak, hc]⟩

theorem testRefined_eq {i : Nat} {avg : Fp32} (hw : i + 15 * s.config.spc < w.length)
    (havg : avgPeak s.config.spc w i = some avg) :
    testRefined s.config.spc (Fp32.ofBits s.threshRatio) (Fp32.ofBits s.spreadRatio) w i =
      some (refinedVerdict s w i avg) := by
  obtain ⟨loud, hloud⟩ := anySample_of_lt (w := w) (base := i)
    (fun x => x.gt (avg.div (Fp32.ofBits s.threshRatio))) (ds := silenceOffsets s.config.spc)
    fun d hd => by have := silenceOffsets_le hd; omega
  obtain ⟨outside, houtside⟩ := anySample_of_lt (w := w) (base := i)
    (fun p => p.lt (avg.div (Fp32.ofBits s.spreadRatio)) || p.gt (avg.mul (Fp32.ofBits s.spreadRatio)))
    (ds := pulseOffsets s.config.spc) fun d hd => by have := pulseOffsets_le hd; omega
  simp only [testRefined, havg, hloud, houtside, Option.bind_eq_bind, Option.bind_some, Option.pure_def,
    refinedVerdict, silenceHolds_iff hloud, spreadHolds_iff houtside, Bool.not_eq_false, apply_ite some]

/-- On a candidate whose span is in the window every read is defined, so the test is its verdict. -/
theorem detTest_eq_verdict {j : Nat} (hspc : 0 < s.config.spc) (hw : j + 16 * s.config.spc < w.length) :
    ∃ i avg, RefinesTo s.config.spc w j i ∧ avgPeak s.config.spc w i = some avg ∧
      detTest s w j = some (verdict s w j i avg) := by
  obtain ⟨level, hlevel⟩ := winR_of_lt (w := w) (j := j) (by omega)
  obtain ⟨here, hhere⟩ := winS_of_lt (w := w) (j := j) (by omega)
  obtain ⟨next, hnext⟩ := winS_of_lt (w := w) (j := j + 1) (by omega)
  obtain ⟨missing, hmissing⟩ := anySample_of_lt (w := w) (base := j)
    (fun x => !x.gt (level.mul (Fp32.ofBits s.threshRatio)))
    (ds := [2 * s.config.spc, 7 * s.config.spc, 9 * s.config.spc]) (by simp; omega)
  obtain ⟨i, hi, hji, hij⟩ := refine_of_lt (spc := s.config.spc) (w := w) (n := s.config.spc) (i := j) (by omega)
  obtain ⟨avg, havg⟩ := avgPeak_of_lt (w := w) (spc := s.config.spc) (a := i) (by omega)
  refine ⟨i, avg, refine_spec hi, havg, ?_⟩
  rw [detTest, detSpan, if_neg (Nat.not_le.mpr hw)]
  simp only [testCandidate, hlevel, hhere, hnext, hmissing, hi, testRefined_eq (i := i) (by omega) havg,
    Option.bind_eq_bind, Option.bind_some, Option.pure_def, verdict, fires_iff hlevel hhere,
    stillRising_iff hhere hnext, pulsesExceed_iff hlevel hmissing, Bool.not_eq_true', Bool.not_eq_false,
    Bool.not_eq_true, apply_ite some]

end

/-- Settles O19: the test is its verdict (`detTest_eq_verdict`), whose branches are the clauses. -/
theorem detectorStepsDecide : Obligations.DetectorStepsDecide := by
  refine ⟨⟨rfl, rfl, rfl, rfl, rfl⟩, fun s w j hspc hw => ?_⟩
  obtain ⟨i, avg, hrefines, havg, hverdict⟩ := detTest_eq_verdict hspc hw
  refine ⟨i, avg, hrefines, havg, ?_⟩
  simp only [hverdict, Option.some.injEq, verdict, refinedVerdict]
  by_cases hfires : Fires s w j
  case neg => simp [hfires]
  by_cases hrising : StillRising w j
  case pos => simp [hfires, hrising]
  by_cases hpulses : PulsesExceed s w j
  case neg => simp [hfires, hrising, hpulses]
  by_cases hsilence : SilenceHolds s w i avg
  case neg => simp [hfires, hrising, hpulses, hsilence]
  by_cases hspread : SpreadHolds s w i avg
  case neg => simp [hfires, hrising, hpulses, hsilence, hspread]
  case pos => simp [hfires, hrising, hpulses, hsilence, hspread, eq_comm]

/-! ### Refinement (R165) -/

/-- An accepted candidate has its span in the window and was refined to the offset of its burst. -/
theorem detTest_accept_refines {s : State} {w : Window} {j i : Nat} {ref : Word}
    (h : detTest s w j = some (.accept i ref)) :
    j + 16 * s.config.spc < w.length ∧ RefinesTo s.config.spc w j i := by
  rw [detTest, detSpan] at h
  split at h
  · simp at h
  · exact ⟨by omega, refine_spec (testCandidate_accept h)⟩

/-- Settles O20: the offset is one that refinement answers, and the two sums where it stops are defined. -/
theorem refinementIsBounded : Obligations.RefinementIsBounded := by
  intro s w j i ref h
  obtain ⟨hw, hji, hij, hrises, hstop⟩ := detTest_accept_refines h
  refine ⟨hji, hij, by omega, hrises, fun hearly => ?_⟩
  obtain ⟨x, hx⟩ := corr_of_lt (spc := s.config.spc) (w := w) (a := i) (by omega)
  obtain ⟨y, hy⟩ := corr_of_lt (spc := s.config.spc) (w := w) (a := i + 1) (by omega)
  exact ⟨x, y, hx, hy, Bool.eq_false_iff.mpr fun hgt => hstop hearly ⟨x, y, hx, hy, hgt⟩⟩

/-! ### What the test reads -/

section
variable {spc : Nat} {w w' : Window}

/-- Steps 6 and 7 read the samples of `15 SPC` from their offset. -/
theorem testRefined_congr {i : Nat} (ratio spread : Fp32)
    (h : ∀ d ≤ 15 * spc, winS w (i + d) = winS w' (i + d)) :
    testRefined spc ratio spread w i = testRefined spc ratio spread w' i := by
  have hpulses : ∀ d ∈ pulseOffsets spc, winS w (i + d) = winS w' (i + d) := fun d hd =>
    h d (by have := pulseOffsets_le hd; omega)
  have hsilence : ∀ d ∈ silenceOffsets spc, winS w (i + d) = winS w' (i + d) := fun d hd =>
    h d (silenceOffsets_le hd)
  simp only [testRefined, avgPeak, corr_congr hpulses, anySample_congr _ hpulses, anySample_congr _ hsilence]

/-- The steps read the samples of `16 SPC` from the candidate, and its reference level. -/
theorem testCandidate_congr {j : Nat} (hspc : 0 < spc) (ratio spread : Fp32) (hlevel : winR w j = winR w' j)
    (h : ∀ k, j ≤ k → k ≤ j + 16 * spc → winS w k = winS w' k) :
    testCandidate spc ratio spread w j = testCandidate spc ratio spread w' j := by
  have hpulses : ∀ d ∈ [2 * spc, 7 * spc, 9 * spc], winS w (j + d) = winS w' (j + d) := fun d hd => by
    simp only [List.mem_cons, List.not_mem_nil, or_false] at hd
    exact h _ (by omega) (by omega)
  have hrefine : refine spc w spc j = refine spc w' spc j := refine_congr h le_rfl (by omega)
  have hrefined : ((refine spc w' spc j).bind fun i => testRefined spc ratio spread w i) =
      (refine spc w' spc j).bind fun i => testRefined spc ratio spread w' i :=
    Option.bind_congr fun i hi => by
      obtain ⟨hji, hij, -⟩ := refine_spec hi
      exact testRefined_congr ratio spread fun d hd => h _ (by omega) (by omega)
  simp only [testCandidate, hlevel, h j le_rfl (by omega), h (j + 1) (by omega) (by omega),
    anySample_congr _ hpulses, hrefine, Option.bind_eq_bind, hrefined]

end

theorem winS_congr {w w' : Window} {k : Nat} (h : (w[k]?).map (·.amplitude) = (w'[k]?).map (·.amplitude)) :
    winS w k = winS w' k := by
  simpa [winS, Function.comp_def] using congrArg (Option.map Fp32.ofBits) h

theorem winR_congr {w w' : Window} {k : Nat} (h : (w[k]?).map (·.reference) = (w'[k]?).map (·.reference)) :
    winR w k = winR w' k := by
  simpa [winR, Function.comp_def] using congrArg (Option.map Fp32.ofBits) h

/-- Settles O21: both windows reach the span, and the steps read the same samples in it. -/
theorem detTestReadsOnlyItsSpan : Obligations.DetTestReadsOnlyItsSpan := by
  intro s w w' j hspc hw hw' hamplitude hreference
  rw [detTest, detTest, detSpan, if_neg (Nat.not_le.mpr hw), if_neg (Nat.not_le.mpr hw')]
  exact testCandidate_congr hspc _ _ (winR_congr hreference) fun k hlow hhigh => winS_congr (hamplitude k hlow hhigh)

end Sys2Proof.Machine
end

section
/-! PROOFS. 42_burst_detector.md R170 to R174: the scan, the timestamp, DET.TEST and RUN.DETECT. -/

namespace Sys2Proof.Machine

/-! ### The scan (R170, R171) -/

theorem scan_of_short {s : State} {w : Window} (h : w.length < 241 * s.config.spc) :
    scan s w = some .insufficient :=
  if_pos h

/-- With the lookahead in the window the scan answers what the search of the eligible candidates found. -/
theorem scan_of_eligible {s : State} {w : Window} (h : 241 * s.config.spc ≤ w.length) :
    scan s w = (firstAccept s w (w.length - 241 * s.config.spc + 1) 0).map fun hit =>
      hit.elim (.noBurst (w.length - 241 * s.config.spc + 1)) fun a =>
        .burst a.offset a.ref (a.offset + 240 * s.config.spc) := by
  have hlook : ¬ w.length < lookahead s.config.spc := Nat.not_lt.mpr h
  simp only [scan, if_neg hlook]
  simp only [lookahead, frameSpan]
  cases firstAccept s w (w.length - 241 * s.config.spc + 1) 0 with
  | none => rfl
  | some hit => cases hit <;> rfl

/-- Settles O22: what the search of the eligible candidates says (`firstAccept_spec`), read through the scan. -/
theorem scanFindsTheFirstBurst : Obligations.ScanFindsTheFirstBurst := by
  intro s w r h
  by_cases hw : w.length < 241 * s.config.spc
  · rw [scan_of_short hw] at h
    cases h
    exact hw
  · have hlook := Nat.not_lt.mp hw
    have hscan := h
    rw [scan_of_eligible hlook, Option.map_eq_some_iff] at h
    obtain ⟨hit, hhit, rfl⟩ := h
    have hfirst := firstAccept_spec hhit
    cases hit with
    | none => exact ⟨hlook, rfl, fun j hj => hfirst j (by omega) (by omega)⟩
    | some a =>
      obtain ⟨-, heligible, haccept, hearlier⟩ := hfirst
      exact ⟨rfl, scan_burst_fits hscan, a.candidate, by omega, haccept, fun j hj => hearlier j (by omega) hj⟩

theorem scan_eq_insufficient_iff {s : State} {w : Window} :
    scan s w = some .insufficient ↔ w.length < 241 * s.config.spc :=
  ⟨scanFindsTheFirstBurst s w _, scan_of_short⟩

/-! ### The timestamp (R172) -/

/-- The seconds wrap at `2^64` (R172). -/
theorem ofInt_toNat_add (v : DWord) (x : Int) : BitVec.ofInt 64 (v.toNat + x) = v + BitVec.ofInt 64 x := by
  rw [BitVec.ofInt_add, BitVec.ofInt_natCast, BitVec.ofNat_toNat, BitVec.setWidth_eq]

/-- Settles O24: `q` and `r` are the Euclidean quotient and remainder by SAMPLE_RATE, and the seconds are a sum of words
(`ofInt_toNat_add`), with the carry or without. -/
theorem timestampRule : Obligations.TimestampRule := by
  intro s i
  refine ⟨fun hanchor => by simp [timestamp, hanchor, setTsValid], fun hanchor hrate => ?_⟩
  have hpos : (0 : Int) < s.config.sampleRate := Int.ofNat_lt.mpr hrate
  refine ⟨_, _, (Int.ediv_mul_add_emod _ (s.config.sampleRate : Int)).symm, Int.emod_nonneg _ hpos.ne',
    Int.emod_lt_of_pos _ hpos, ?_⟩
  simp only [timestamp, hanchor, if_true, setTsValid, Nat.cast_add, ofInt_toNat_add]
  split <;> rfl

/-! ### DET.TEST (R169) -/

theorem spc_pos_of_presents {s : State} {n : Word} (h : s.Presents n) : 0 < s.config.spc := by
  have hwf := h.config
  simp only [Config.wf, Bool.and_eq_true, decide_eq_true_eq] at hwf
  exact hwf.1

theorem verdict_ne_outOfWindow (s : State) (w : Window) (j i : Nat) (avg : Fp32) :
    verdict s w j i avg ≠ .outOfWindow := by
  unfold verdict refinedVerdict
  split_ifs <;> simp

/-- The guard on the span comes before any read, and no step answers out of window (R168). -/
theorem detTest_eq_outOfWindow_iff {s : State} {w : Window} {j : Nat} (hspc : 0 < s.config.spc) :
    detTest s w j = some .outOfWindow ↔ w.length ≤ j + 16 * s.config.spc := by
  refine ⟨fun h => not_lt.mp fun hw => ?_, fun hw => if_pos hw⟩
  obtain ⟨i, avg, -, -, hverdict⟩ := detTest_eq_verdict hspc hw
  rw [hverdict, Option.some.injEq] at h
  exact verdict_ne_outOfWindow s w j i avg h

/-- The window commands that need the ratio fault without it (R23, R283). -/
theorem configured_of_not {before : State} (hr : before.Running) (hc : before.status.cfgValid = false)
    (body : Result) : configured before body = .next (faultedBy 0xF2 before) := by
  rw [configured, if_neg (Bool.eq_false_iff.mp hc), raiseFault_running hr]
  rfl

theorem configured_of_valid {before : State} (hc : before.status.cfgValid = true) (body : Result) :
    configured before body = body :=
  if_pos hc

/-- Settles O18: the test always answers (`detTest_answers`), and each answer is one end of the command. -/
theorem detTestCommand : Obligations.DetTestCommand := by
  intro s j n hr hp
  refine ⟨rfl, fun hc => ?_, fun hc => ?_⟩
  · rw [exec, execDetTest, windowCommand_running hr hp, configured_of_not hr hc]
  · obtain ⟨r, hdet⟩ := detTest_answers (spc_pos_of_presents hp) (presentedWindow s) j.toNat
    refine ⟨r, hdet, ?_, ?_⟩
    · rw [hp.length, ← detTest_eq_outOfWindow_iff (spc_pos_of_presents hp), hdet, Option.some.injEq]
    · rw [exec, execDetTest, windowCommand_running hr hp, configured_of_valid hc,
        detTest_congr (s := s) (u := clearCounts s) rfl rfl rfl, hdet]
      cases r <;> rfl

/-! ### RUN.DETECT (R173) -/

/-- ABS_COUNT advances as a word (R29). -/
theorem advanceCount_eq (c : Nat) (s : State) :
    advanceCount c s = { s with absCount := s.absCount + BitVec.ofNat 64 c } := by
  rw [advanceCount, BitVec.ofNat_add, BitVec.ofNat_toNat, BitVec.setWidth_eq]

/-- Settles O23: the scan always answers (`scan_answers`), and each answer is one end of the command. -/
theorem runDetectCommand : Obligations.RunDetectCommand := by
  intro s n hr hp
  refine ⟨rfl, fun hc => ?_, fun hc => ?_⟩
  · rw [exec, execRunDetect, windowCommand_running hr hp, configured_of_not hr hc]
  · obtain ⟨r, hscan⟩ := scan_answers (spc_pos_of_presents hp) (presentedWindow s)
    refine ⟨r, hscan, ?_, ?_⟩
    · rw [hp.length, ← scan_eq_insufficient_iff, hscan, Option.some.injEq]
    · rw [exec, execRunDetect, windowCommand_running hr hp, configured_of_valid hc,
        scan_congr (s := s) (u := clearCounts s) rfl rfl rfl, hscan, withRead]
      cases r with
      | insufficient => rfl
      | noBurst c =>
        simp only [advanceCount_eq]
        rfl
      | burst i ref c =>
        have hclear : timestamp i (clearCounts s) = counted 0 0 (timestamp i s) := timestamp_counted i 0 0 s
        simp only [advanceCount_eq, hclear]
        rw [timestamp_frame]
        rfl

/-! ### Quiet windows (R174) -/

/-- An accepted candidate exceeds its threshold (R162). -/
theorem fires_of_accepted {s : State} {w : Window} {j : Nat} (hspc : 0 < s.config.spc) (h : Accepted s w j) :
    Fires s w j := by
  obtain ⟨k, ref, haccept⟩ := h
  obtain ⟨i, avg, -, -, hverdict⟩ := detTest_eq_verdict hspc (detTest_accept_refines haccept).1
  by_contra hquiet
  rw [verdict, if_pos hquiet, haccept] at hverdict
  cases hverdict

theorem not_fires_of_quiet {s : State} {w : Window} (j : Nat)
    (hquiet : ∀ p ∈ w, (Fp32.ofBits p.amplitude).gt
      ((Fp32.ofBits p.reference).mul (Fp32.ofBits s.threshRatio)) = false) : ¬ Fires s w j := by
  rintro ⟨level, x, hlevel, hx, hgt⟩
  obtain ⟨p, hp, rfl⟩ := Option.map_eq_some_iff.mp hlevel
  obtain ⟨p', hp', rfl⟩ := Option.map_eq_some_iff.mp hx
  rw [hp, Option.some.injEq] at hp'
  rw [← hp', hquiet p (List.mem_of_getElem? hp)] at hgt
  cases hgt

/-- Settles O25: an accepted candidate fires, so the scan found none in a quiet window. -/
theorem quietWindowHasNoBurst : Obligations.QuietWindowHasNoBurst := by
  intro s n hr hp hc hlook hquiet
  have hspc := spc_pos_of_presents hp
  obtain ⟨-, -, hvalid⟩ := runDetectCommand s n hr hp
  obtain ⟨r, hscan, -, hexec⟩ := hvalid hc
  have hfirst := scanFindsTheFirstBurst s _ r hscan
  rw [hp.length] at hlook ⊢
  cases r with
  | insufficient => exact absurd hfirst (Nat.not_lt.mpr hlook)
  | noBurst c =>
    obtain ⟨-, rfl, -⟩ := hfirst
    exact hexec
  | burst i ref c =>
    obtain ⟨-, -, j, -, haccept, -⟩ := hfirst
    exact absurd (fires_of_accepted hspc ⟨i, ref, haccept⟩) (not_fires_of_quiet j hquiet)

end Sys2Proof.Machine
end

section
/-! PROOFS. 43_bit_slicer.md R190 to R194: the decision on two chips, the sliced frame against the chips of its bits,
SLICE.BIT and SLICE.FRAME. -/

namespace Sys2Proof.Machine

/-! ### The decision (R190) and SLICE.BIT (R191) -/

/-- Settles O26: which chips are in reference selects the branch, then the higher chip. -/
theorem slicerDecision : Obligations.SlicerDecision := by
  intro s e0 e1 ref low high strong In
  have inReference (e : Fp32) : In e ↔ (low.lt e && e.lt high) = true := (Bool.and_eq_true_iff ..).symm
  simp only [inReference, Bool.not_eq_true, sliceBit, decideBit, low, high, strong]
  refine ⟨fun h0 h1 => ?_, fun h1 h0 => ?_, fun h0 h1 => ?_, fun h0 h1 hgt => ?_, fun h0 h1 hgt => ?_⟩
  · simp [h0, h1]
  · simp [h0, h1]
  · simp [h0, h1]
  · simp [h0, h1, hgt]
  · simp [h0, h1, hgt]

/-- RES0 of SLICE.BIT as a sum: the two bits do not overlap (R191). -/
theorem slicedWord_eq_add (b : SlicedBit) :
    slicedWord b = (if b.value then 1 else 0) + (if b.confident then 2 else 0) := by
  obtain ⟨value, confident⟩ := b
  cases value <;> cases confident <;> rfl

/-- Settles O27: the command has no guard, so it is its decision in every running core. -/
theorem sliceBitCommand : Obligations.SliceBitCommand := by
  intro s e0 e1 ref hr
  refine ⟨rfl, ?_⟩
  rw [exec, execSliceBit, plainCommand_running hr, slicedWord_eq_add]
  rfl

/-! ### SLICE.FRAME (R194) -/

/-- Settles O28: the guard is the worst case, inside which slicing answers (`sliceFrame_answers`). -/
theorem sliceFrameCommand : Obligations.SliceFrameCommand := by
  intro s n hr hp
  refine ⟨rfl, fun hshort => ?_, fun hfits => ?_⟩
  · rw [hp.length] at hshort
    rw [exec, execSliceFrame, windowCommand_running hr hp]
    exact if_pos hshort
  · rw [hp.length] at hfits
    obtain ⟨t, ht⟩ := sliceFrame_answers (ref := s.refLevel) (spc_pos_of_presents hp) hfits
    have hclear : sliceFrame (presentedWindow s) s.burstOffset.toNat s.refLevel (clearCounts s) =
        some (withFrameOf t (clearCounts s)) := by
      rw [sliceFrame_congr (s := s) (u := clearCounts s) ⟨rfl, rfl, rfl, rfl, rfl⟩, ht, Option.map_some]
    refine ⟨t, ht, ?_⟩
    rw [exec, execSliceFrame, windowCommand_running hr hp]
    refine (if_neg (Nat.not_lt.mpr hfits)).trans ?_
    exact congrArg (withRead · (done .ok)) hclear

/-! ### The chips of a bit (R192) -/

/-- The decision reads SPC and the three factors. -/
theorem chipDecision_congr {s u : State} (h : SameSlicer u s) (w : Window) (i : Nat) (ref : Word) (k : Fin 112) :
    chipDecision u w i ref k = chipDecision s w i ref k := by
  simp only [chipDecision, sliceBit, h.config, h.low, h.high, h.strong]

/-- Slicing a bit stores the decision on its two chips (R193). -/
theorem sliceOne_eq_map_chipDecision (w : Window) (i : Nat) (ref : Word) (s : State) (k : Fin 112) :
    sliceOne w i (Fp32.ofBits ref) s k = (chipDecision s w i ref k).map (storeBit k · s) := by
  have hlate : 16 + 2 * k.val + 1 = 17 + 2 * k.val := by omega
  simp only [sliceOne, chipDecision, chipOffset, Nat.add_zero, hlate]
  cases winS w (i + (16 + 2 * k.val) * s.config.spc) <;> cases winS w (i + (17 + 2 * k.val) * s.config.spc) <;> rfl

theorem sameSlicer_storeBit {s u : State} (h : SameSlicer u s) (k : Fin 112) (b : SlicedBit) :
    SameSlicer (storeBit k b u) s := by
  rw [storeBit_frame]
  exact ⟨h.config, h.longMask, h.low, h.high, h.strong⟩

/-! ### The low-confidence list (R34, R193) -/

/-- LCB_TOTAL counts the bits `doubtful` and LCB_POS holds the first 24 of them (R34, R36). -/
structure Records (doubtful : List (Fin 112)) (s : State) : Prop where
  total : s.lcbTotal.val = doubtful.length
  positions : recordedPositions s = doubtful.take 24

/-- One more low-confidence bit is the next entry, if there is one left; the count does not wrap at up to 112 bits. -/
theorem Records.noteLowConfidence {doubtful : List (Fin 112)} {s : State} (h : Records doubtful s)
    (hroom : doubtful.length < 112) (k : Fin 112) : Records (doubtful ++ [k]) (noteLowConfidence k s) := by
  obtain ⟨hcount, hpositions⟩ := h
  have htotal : (Machine.noteLowConfidence k s).lcbTotal.val = s.lcbTotal.val + 1 := by
    simp only [Machine.noteLowConfidence, Fin.val_add, Fin.val_one]
    omega
  refine ⟨by rw [htotal, hcount, List.length_append, List.length_singleton], ?_⟩
  rw [recordedPositions] at hpositions ⊢
  rw [htotal]
  by_cases hfree : s.lcbTotal.val < 24
  · have hlcbPos : (Machine.noteLowConfidence k s).lcbPos = s.lcbPos.set s.lcbTotal.val k hfree := dif_pos hfree
    have hall : (doubtful ++ [k]).take 24 = doubtful ++ [k] := List.take_of_length_le (by simp; omega)
    rw [List.take_of_length_le (l := doubtful) (by omega)] at hpositions
    rw [hlcbPos, hall, Vector.toList_set, List.take_add_one, List.take_set_of_le (Nat.le_refl _), hpositions,
      List.getElem?_set_self (by simpa using hfree), Option.toList_some]
  · have hlcbPos : (Machine.noteLowConfidence k s).lcbPos = s.lcbPos := dif_neg hfree
    have hfull (n : Nat) (hn : 24 ≤ n) : s.lcbPos.toList.take n = s.lcbPos.toList :=
      List.take_of_length_le (by simpa using hn)
    rw [hfull _ (by omega)] at hpositions
    rw [hlcbPos, hfull _ (by omega), hpositions, List.take_append_of_le_length (by omega)]

/-- Storing a decision on a bit records the bit when the decision is doubtful. -/
theorem Records.storeBit {doubtful : List (Fin 112)} {s : State} (h : Records doubtful s)
    (hroom : doubtful.length < 112) (k : Fin 112) (b : SlicedBit) :
    Records (doubtful ++ if b.confident then [] else [k]) (storeBit k b s) := by
  have hstored : Records doubtful { s with fb := setFrameBit s.fb k b.value } := { h with }
  unfold Machine.storeBit
  split
  · rwa [List.append_nil]
  · exact hstored.noteLowConfidence hroom k

/-! ### The sliced bits (R193) -/

section
variable {w : Window} {i : Nat} {ref : Word} {s : State}

/-- Slicing a list of bits stores the decision on the chips of the first, then slices the others. -/
theorem sliceBits_cons_chipDecision {k : Fin 112} {ks : List (Fin 112)} {u t : State} (hu : SameSlicer u s)
    (h : sliceBits w i (Fp32.ofBits ref) (k :: ks) u = some t) :
    ∃ b, chipDecision s w i ref k = some b ∧ sliceBits w i (Fp32.ofBits ref) ks (storeBit k b u) = some t := by
  simp only [sliceBits, Option.bind_eq_bind, Option.bind_eq_some_iff, sliceOne_eq_map_chipDecision,
    chipDecision_congr hu, Option.map_eq_some_iff] at h
  obtain ⟨-, ⟨b, hb, rfl⟩, h⟩ := h
  exact ⟨b, hb, h⟩

/-- Each bit of a list of distinct bits is the decision on its chips once the list is sliced. -/
theorem sliceBits_value {k : Fin 112} :
    ∀ {ks : List (Fin 112)} {u t : State}, SameSlicer u s → sliceBits w i (Fp32.ofBits ref) ks u = some t →
      ks.Nodup → k ∈ ks → ∃ b, chipDecision s w i ref k = some b ∧ frameBit t.fb k = b.value
  | [], _, _, _, _, _, hk => absurd hk List.not_mem_nil
  | k' :: ks, u, t, hu, h, hnodup, hk => by
    obtain ⟨hfresh, hnodup⟩ := List.nodup_cons.mp hnodup
    obtain ⟨b, hb, h⟩ := sliceBits_cons_chipDecision hu h
    obtain rfl | hk := List.mem_cons.mp hk
    · exact ⟨b, hb, by rw [sliceBits_frameBit h hfresh, storeBit_fb, frameBit_setFrameBit, if_pos rfl]⟩
    · exact sliceBits_value (sameSlicer_storeBit hu k' b) h hnodup hk

/-- Slicing a list of bits records its doubtful bits, in order, after those already recorded. -/
theorem Records.sliceBits :
    ∀ {ks doubtful : List (Fin 112)} {u t : State}, Records doubtful u → SameSlicer u s →
      sliceBits w i (Fp32.ofBits ref) ks u = some t → doubtful.length + ks.length ≤ 112 →
      Records (doubtful ++ ks.filter (isDoubtful s w i ref)) t
  | [], doubtful, u, t, hrec, _, h, _ => by
    obtain rfl : u = t := by simpa [Machine.sliceBits] using h
    simpa using hrec
  | k :: ks, doubtful, u, t, hrec, hu, h, hroom => by
    obtain ⟨b, hb, h⟩ := sliceBits_cons_chipDecision hu h
    rw [List.length_cons] at hroom
    have hdoubt : isDoubtful s w i ref k = !b.confident := by rw [isDoubtful, hb]
    have hrest := (hrec.storeBit (by omega) k b).sliceBits (sameSlicer_storeBit hu k b) h
      (by split <;> simp <;> omega)
    rw [List.filter_cons, hdoubt]
    cases hconf : b.confident <;> simpa [hconf] using hrest

end

/-! ### The sliced frame (R193) -/

/-- The header bits are the first five of either kind. -/
theorem header_append_drop (kind : FrameKind) :
    (frameIndices .short).take 5 ++ (frameIndices kind).drop 5 = frameIndices kind := by
  cases kind <;> decide +kernel

theorem sliceBits_append {w : Window} {i : Nat} {ref : Fp32} :
    ∀ {ks ks' : List (Fin 112)} {s : State},
      sliceBits w i ref (ks ++ ks') s = (sliceBits w i ref ks s).bind (sliceBits w i ref ks')
  | [], _, _ => rfl
  | k :: ks, ks', s => by
    simp only [List.cons_append, sliceBits, Option.bind_eq_bind, Option.bind_assoc, sliceBits_append]

/-- No bit reads KIND, so slicing the two parts of a frame is slicing all bits of its kind with KIND already written. -/
theorem sliceBits_of_sliceFrame {w : Window} {i : Nat} {ref : Word} {s t : State} (h : sliceFrame w i ref s = some t) :
    sliceBits w i (Fp32.ofBits ref) (frameIndices t.kind) { clearFrame s with kind := t.kind } = some t := by
  obtain ⟨header, hheader, hrest, hkind⟩ := sliceFrame_parts h
  have hclassify : classify header = graft header { clearFrame s with kind := t.kind } := by
    rw [classify, sliceBits_frame hheader, hkind]
    rfl
  have hgraft := sliceBits_graft (w := w) (i := i) (ref := Fp32.ofBits ref) (ks := (frameIndices .short).take 5)
    (u := { clearFrame s with kind := t.kind }) (s := clearFrame s) ⟨rfl, rfl, rfl, rfl, rfl⟩
  rw [hheader, Option.map_some, ← hclassify] at hgraft
  rw [← header_append_drop, sliceBits_append]
  exact (congrArg (Option.bind · _) hgraft).trans hrest

/-- Settles O29: all bits of the kind are sliced once (`sliceBits_of_sliceFrame`), each with the decision on its chips
(`sliceBits_value`), and the doubtful ones are recorded in order (`Records.sliceBits`). -/
theorem slicedFrameMatchesTheChips : Obligations.SlicedFrameMatchesTheChips := by
  intro w i ref s t h
  have hslice := sliceBits_of_sliceFrame h
  have hstart : SameSlicer { clearFrame s with kind := t.kind } s := ⟨rfl, rfl, rfl, rfl, rfl⟩
  have hnodup : (frameIndices t.kind).Nodup := (frameIndices_pairwise t.kind).imp ne_of_lt
  have hrecords := Records.sliceBits (doubtful := []) ⟨rfl, rfl⟩ hstart hslice (by cases t.kind <;> decide)
  rw [List.nil_append] at hrecords
  refine ⟨fun k hk => sliceBits_value hstart hslice hnodup ((mem_frameIndices _ k).mpr hk), ?_, hrecords.positions⟩
  rw [hrecords.total, List.countP_eq_length_filter]

end Sys2Proof.Machine
end

section
/-! PROOFS. 44_frame_classifier.md R211 to R214: the kind of a header, the fruit scan, CLS.KIND and CLS.FRUIT. -/

namespace Sys2Proof.Machine

/-! ### The fruit scan (R213) -/

/-- Either span holds the preamble at its start and the test span at its end, so the number of candidates does not
truncate. -/
theorem two_mul_detSpan_le_kindSpan (spc : Nat) (kind : FrameKind) : 2 * detSpan spc ≤ kindSpan spc kind := by
  cases kind <;> simp only [detSpan, kindSpan, kindLen] <;> omega

/-- The scan answers the candidate index of what the search of its range found. -/
theorem fruit_eq_some_iff {s : State} {w : Window} {i : Nat} {kind : FrameKind} {hit : Option Nat} :
    fruit s w i kind = some hit ↔
      ∃ a, firstAccept s w (kindSpan s.config.spc kind - 2 * detSpan s.config.spc) (i + detSpan s.config.spc) = some a ∧
        a.map Acceptance.candidate = hit := by
  simp only [fruit, Option.bind_eq_bind, Option.bind_eq_some_iff, Option.pure_def, Option.some.injEq]

/-- Settles O32: what the search of the range says (`firstAccept_spec`), read through the scan. -/
theorem fruitFindsTheFirst : Obligations.FruitFindsTheFirst := by
  intro s w i kind hit h
  obtain ⟨a, ha, rfl⟩ := fruit_eq_some_iff.mp h
  have hspan := two_mul_detSpan_le_kindSpan s.config.spc kind
  have hfirst := firstAccept_spec ha
  simp only [detSpan] at hspan hfirst
  cases a with
  | none => exact fun j hfrom hto => hfirst j hfrom (by omega)
  | some a =>
    obtain ⟨hfrom, hto, haccept, hearlier⟩ := hfirst
    exact ⟨hfrom, by omega, ⟨a.offset, a.ref, haccept⟩, hearlier⟩

/-! ### CLS.FRUIT (R214) -/

/-- Settles O33: the guard is the span of the frame's kind; behind it the scan answers (`fruit_answers`), and each answer
is one end of the command. -/
theorem clsFruitCommand : Obligations.ClsFruitCommand := by
  intro s n hr hp
  refine ⟨rfl, fun hc => ?_, fun hc hshort => ?_, fun hc hfits => ?_⟩
  · rw [exec, execClsFruit, windowCommand_running hr hp, configured_of_not hr hc]
  · rw [hp.length] at hshort
    rw [exec, execClsFruit, windowCommand_running hr hp, configured_of_valid hc]
    exact if_pos hshort
  · rw [hp.length] at hfits
    obtain ⟨hit, hhit⟩ := fruit_answers (spc_pos_of_presents hp) (presentedWindow s) s.burstOffset.toNat s.kind
    refine ⟨hit, hhit, ?_⟩
    rw [exec, execClsFruit, windowCommand_running hr hp, configured_of_valid hc]
    refine (if_neg (Nat.not_lt.mpr hfits)).trans ?_
    rw [fruit_congr (s := s) (u := clearCounts s) rfl rfl rfl]
    refine (congrArg (withRead · _) hhit).trans ?_
    cases hit <;> rfl

/-! ### CLS.KIND (R211, R212) -/

/-- The command word of CLS.KIND: the header is below the opcode (R212). -/
theorem commandWord_clsKind : ∀ hdr : BitVec 5,
    commandWord .clsKind 0 ((0 : BitVec 11) ++ hdr) = 0x40000000 ||| hdr.setWidth 32 := by
  decide +kernel

/-- The word of a header's kind is its bit of LONG_MASK (R211). -/
theorem kindWord_kindOf (mask : Word) (hdr : BitVec 5) :
    kindWord (kindOf mask hdr) = (mask >>> hdr.toNat) &&& 1 := by
  refine Eq.trans ?_ BitVec.and_one_eq_setWidth_ofBool_getLsbD.symm
  rw [BitVec.getLsbD_ushiftRight, Nat.add_zero, kindOf]
  cases mask.getLsbD hdr.toNat <;> rfl

/-- Settles O31: the command has no guard, and its answer is the bit of the mask (`kindWord_kindOf`). -/
theorem clsKindCommand : Obligations.ClsKindCommand := by
  intro s hdr hr
  refine ⟨by rw [encode, commandWord_clsKind], ?_⟩
  rw [exec, execClsKind, plainCommand_running hr, kindWord_kindOf]
  rfl

end Sys2Proof.Machine
end

section
/-! PROOFS. 45_frame_validator.md R220 to R222: VALIDATE, its frame, and a second VALIDATE. -/

namespace Sys2Proof.Machine

/-! ### VALIDATE (R220, R221) -/

theorem allZero_iff (kind : FrameKind) (fb : Vector Byte 14) :
    allZero kind fb = true ↔ ∀ k : Fin 112, k.val < kindLen kind → frameBit fb k = false := by
  simp only [allZero, List.all_eq_true, mem_frameIndices, Bool.not_eq_true']

theorem msgType_eq_eleven_iff (fb : Vector Byte 14) : msgType fb = 11 ↔ (fb[0] >>> 3).toNat = 11 := by
  rw [← msgType_toNat, ← BitVec.toNat_inj]
  rfl

theorem FrameKind.eq_long_of_ne_short {kind : FrameKind} (h : kind ≠ .short) : kind = .long := by
  cases kind with
  | short => exact absurd rfl h
  | long => rfl

/-- The corrector answers NoErrorPresent for syndrome 0 only (R243). -/
theorem correctFrame_ne_noErrorPresent {s : State} (h : frameCrc .long s ≠ 0) :
    (correctFrame s).1 ≠ .noErrorPresent := by
  simp only [correctFrame, if_neg h]
  split
  · simp
  · split <;> simp

/-- It searches only with LCB_TOTAL at most LCB_LIMIT (R243). -/
theorem lcbTotal_le_of_single {s : State} (h : (correctFrame s).1 = .single) : s.lcbTotal.val ≤ s.lcbLimit.val := by
  by_contra hover
  revert h
  simp only [correctFrame, if_pos (Nat.lt_of_not_le hover)]
  split <;> simp

/-- It computes SYNDROME itself, so what step 4 wrote there does not matter. -/
theorem correctFrame_of_syndrome (s : State) (syndrome : Word24) :
    correctFrame { s with syndrome := syndrome } = correctFrame s := rfl

/-- A running core ends VALIDATE with the code and the registers of the validator, and counts no packet. -/
theorem exec_validate {s : State} (hr : s.Running) :
    exec .validate s = .next (endedWith (validateFrame s).1.byte (counted 0 0 (validateFrame s).2)) := by
  rw [exec, execValidate, plainCommand_running hr, validateFrame_frame s,
    validateFrame_congr (s := s) (u := clearCounts s) ⟨rfl, rfl, rfl, rfl, rfl⟩ rfl rfl rfl]
  rfl

/-- Settles O34: the steps of the validator are the rule's, in its order; the corrector is reached with a non-zero
syndrome of a Long frame, so it does not answer NoErrorPresent. -/
theorem validateCommand : Obligations.ValidateCommand := by
  intro s hr
  refine ⟨rfl, ?_⟩
  rw [exec_validate hr]
  simp only [validateFrame, allZero_iff, msgType_eq_eleven_iff, msgType_toNat, ne_eq, correctFrame_of_syndrome,
    frameCrc, t11LcbReject]
  congr 1
  split_ifs with hzero huntrusted hdoubtful hclean hshort hmask
  · rfl
  · rfl
  · rfl
  · rfl
  · rfl
  · rfl
  · rw [FrameKind.eq_long_of_ne_short hshort] at hclean
    have herror := correctFrame_ne_noErrorPresent hclean
    cases hcorrect : (correctFrame s).1 with
    | noErrorPresent => exact absurd hcorrect herror
    | tooMany | unsolvable | ambiguous | single => rfl

/-! ### What the validator leaves (R220) -/

/-- Steps 1 and 3 let the frame pass (R220). -/
structure PassesGates (s : State) : Prop where
  notAllZero : allZero s.kind s.fb = false
  trusted : ¬ (s.kind = .short ∧ msgType s.fb ≠ 11 ∧ 0 < s.lcbTotal.val)
  fewDoubtful : ¬ (msgType s.fb = 11 ∧ t11LcbReject ≤ s.lcbTotal.val)

/-- The discard reasons of steps 1 and 3 (R220). -/
def gateCodes : List Code := [.allZeroFrame, .untrustedShortFrame, .lowConfidenceOverLimit]

/-- Everything the validator can answer, one constructor for each of the places where its steps end (R220). -/
inductive Verdict (s : State) : Code × State → Prop where
  /-- Steps 1 and 3 come before SYNDROME is written. -/
  | gated {code : Code} (hcode : code ∈ gateCodes) : Verdict s (code, s)
  /-- Step 5. -/
  | accepted (hpass : PassesGates s) (hzero : frameCrc s.kind s = 0) : Verdict s (.accepted, { s with syndrome := 0 })
  /-- Step 6 without the corrector. -/
  | parityFailed : Verdict s (.parityFailed, { s with syndrome := frameCrc s.kind s })
  /-- Step 6 with it. -/
  | corrector (hlong : s.kind = .long) (herror : (correctFrame s).1 ≠ .noErrorPresent) :
    Verdict s (correctionVerdict (correctFrame s).1, (correctFrame s).2)

theorem validateFrame_verdict (s : State) : Verdict s (validateFrame s) := by
  simp only [validateFrame, correctFrame_of_syndrome]
  split_ifs with hzero huntrusted hdoubtful hclean hshort hmask
  · exact .gated (by decide)
  · exact .gated (by decide)
  · exact .gated (by decide)
  · rw [hclean]
    exact .accepted ⟨Bool.eq_false_iff.mpr hzero, huntrusted, hdoubtful⟩ hclean
  · exact .parityFailed
  · exact .parityFailed
  · have hlong := FrameKind.eq_long_of_ne_short hshort
    rw [hlong] at hclean
    exact .corrector hlong (correctFrame_ne_noErrorPresent hclean)

/-- Behind the gates a frame with syndrome 0 is accepted (R220 step 5). -/
theorem validateFrame_of_passesGates {s : State} (hpass : PassesGates s) (hzero : frameCrc s.kind s = 0) :
    validateFrame s = (.accepted, { s with syndrome := 0 }) := by
  obtain ⟨hbits, htrusted, hfew⟩ := hpass
  simp only [validateFrame, hbits, Bool.false_eq_true, if_false, if_neg htrusted, if_neg hfew, hzero, if_true]

theorem correctionVerdict_eq_corrected_iff {c : Correction} :
    correctionVerdict c = .correctedAndAccepted ↔ c = .single := by
  cases c <;> decide

theorem correctionVerdict_eq_accepted_iff {c : Correction} :
    correctionVerdict c = .accepted ↔ c = .noErrorPresent := by
  cases c <;> decide

theorem correctionVerdict_not_mem_gateCodes (c : Correction) : correctionVerdict c ∉ gateCodes := by
  cases c <;> decide

section
variable {s : State} {v : Code × State} (h : Verdict s v)
include h

/-- A corrected accept is a single solution of the corrector on a Long frame. -/
theorem Verdict.of_corrected (hcode : v.1 = .correctedAndAccepted) :
    s.kind = .long ∧ (correctFrame s).1 = .single := by
  cases h with
  | gated hgate =>
    subst hcode
    exact absurd hgate (by decide)
  | accepted | parityFailed => cases hcode
  | corrector hlong => exact ⟨hlong, correctionVerdict_eq_corrected_iff.mp hcode⟩

/-- An accept without correction comes from step 5. -/
theorem Verdict.of_accepted (hcode : v.1 = .accepted) : PassesGates s ∧ v.2 = { s with syndrome := 0 } := by
  cases h with
  | gated hgate =>
    subst hcode
    exact absurd hgate (by decide)
  | accepted hpass => exact ⟨hpass, rfl⟩
  | parityFailed => cases hcode
  | corrector _ herror => exact absurd (correctionVerdict_eq_accepted_iff.mp hcode) herror

/-- The frame bits change on a corrected accept only (R220 (e)). -/
theorem Verdict.fb_eq (hcode : v.1 ≠ .correctedAndAccepted) : v.2.fb = s.fb := by
  cases h with
  | gated | accepted | parityFailed => rfl
  | corrector =>
    rw [(correctFrame_frame s).2 fun hsingle => hcode (correctionVerdict_eq_corrected_iff.mpr hsingle)]

/-- SYNDROME does not change before step 4 (R220 (e)). -/
theorem Verdict.syndrome_eq (hcode : v.1 ∈ gateCodes) : v.2.syndrome = s.syndrome := by
  cases h with
  | gated => rfl
  | accepted => exact absurd hcode (show Code.accepted ∉ gateCodes by decide)
  | parityFailed => exact absurd hcode (show Code.parityFailed ∉ gateCodes by decide)
  | corrector => exact absurd hcode (correctionVerdict_not_mem_gateCodes _)

end

/-- VALIDATE writes the frame bits and SYNDROME as the validator does, the counts and the outcome (R221). -/
theorem validate_next {s t : State} (hr : s.Running) (h : exec .validate s = .next t) :
    ∃ v, Verdict s v ∧
      t = { endedWith v.1.byte (counted 0 0 s) with fb := v.2.fb, syndrome := v.2.syndrome } := by
  rcases execValidate_next h with hstop | ⟨-, rfl⟩
  · obtain ⟨c, hc, -⟩ := hstop.faulted hr
    exact absurd hc List.not_mem_nil
  · exact ⟨_, validateFrame_verdict s, rfl⟩

/-! ### VALIDATE and CORRECT leave the rest (R220 (e), R243 (g)) -/

theorem mem_gateCodes_of_byte {code : Code} (h : code.byte = 0x20 ∨ code.byte = 0x22 ∨ code.byte = 0x23) :
    code ∈ gateCodes := by
  revert h
  cases code <;> decide

theorem Correction.code_not_mem_gateCodes (c : Correction) : c.code ∉ gateCodes := by
  cases c <;> decide

/-- Settles O35: both commands write what their function wrote (`Verdict.fb_eq`, `Verdict.syndrome_eq`,
`correctFrame_frame`), the counts and the outcome. -/
theorem validatorAndCorrectorFrame : Obligations.ValidatorAndCorrectorFrame := by
  rintro s t i hr (rfl | rfl) h hfault
  · obtain ⟨v, hverdict, rfl⟩ := validate_next hr h
    exact ⟨rfl, fun hne _ => hverdict.fb_eq fun hcode => hne (congrArg Code.byte hcode),
      fun hcode => hverdict.syndrome_eq (mem_gateCodes_of_byte hcode)⟩
  · rcases execCorrect_next h with hstop | ⟨-, -, rfl⟩
    · obtain ⟨c, -, rfl⟩ := hstop.faulted hr
      cases hfault
    · refine ⟨rfl, fun _ hne => ?_,
        fun hcode => absurd (mem_gateCodes_of_byte hcode) (Correction.code_not_mem_gateCodes _)⟩
      have hsame := (correctFrame_frame s).2 fun hsingle => hne (congrArg (fun c => c.code.byte) hsingle)
      show (correctFrame s).2.fb = s.fb
      rw [hsame]

/-! ### A second VALIDATE (R222) -/

/-- With syndrome 0 in the frame and in SYNDROME, and no packet counted, an accept writes the outcome alone. -/
theorem exec_validate_of_syndromeZero {t : State} (hr : t.Running) (hpass : PassesGates t) (hzero : SyndromeZero t)
    (hcounts : counted 0 0 t = t) : exec .validate t = .next (endedWith 0x10 t) := by
  obtain ⟨hsyndrome, hcrc⟩ := hzero
  have hsame : { t with syndrome := 0 } = t := by rw [← hsyndrome]
  rw [exec_validate hr, validateFrame_of_passesGates hpass hcrc, hsame, hcounts]
  rfl

theorem Code.eq_accepted_of_byte {code : Code} (h : code.byte = 0x10) : code = .accepted := by
  revert h
  cases code <;> decide

theorem Code.eq_corrected_of_byte {code : Code} (h : code.byte = 0x11) : code = .correctedAndAccepted := by
  revert h
  cases code <;> decide

/-- Settles O36: an accepted frame has syndrome 0 (`execValidate_syndromeZero`), so only steps 1 and 3 can stop a second
VALIDATE. A corrected frame is Long, with its count within LCB_LIMIT; any other accepted frame has passed them already. -/
theorem validateIsIdempotent : Obligations.ValidateIsIdempotent := by
  intro s t hr h
  have hzero := execValidate_syndromeZero hr h
  obtain ⟨⟨code, u⟩, hverdict, rfl⟩ := validate_next hr h
  refine ⟨fun hcode hbits hfew => ?_, fun hcode hlimit => ?_, fun hcode => ?_⟩
  · obtain ⟨hlong, -⟩ := hverdict.of_corrected (Code.eq_corrected_of_byte hcode)
    have hpass : PassesGates { endedWith code.byte (counted 0 0 s) with fb := u.fb, syndrome := u.syndrome } :=
      { notAllZero := Bool.eq_false_iff.mpr fun hall => hbits ((allZero_iff _ _).mp hall)
        trusted := fun ⟨hshort, _⟩ => nomatch hlong.symm.trans hshort
        fewDoubtful := fun ⟨htype, hcount⟩ => hfew ⟨(msgType_eq_eleven_iff _).mp htype, hcount⟩ }
    exact exec_validate_of_syndromeZero hr hpass (hzero (.inr hcode)) rfl
  · obtain ⟨-, hsingle⟩ := hverdict.of_corrected (Code.eq_corrected_of_byte hcode)
    exact (lcbTotal_le_of_single hsingle).trans_lt hlimit
  · obtain rfl := Code.eq_accepted_of_byte hcode
    obtain ⟨hpass, rfl⟩ := hverdict.of_accepted rfl
    exact exec_validate_of_syndromeZero hr { hpass with } (hzero (.inl hcode)) rfl

end Sys2Proof.Machine
end

section
/-! PROOFS. 46_corrector.md R240 to R244: the popcount, NextComb, the enumeration, the search, NEXTCOMB and CORRECT. -/

namespace Sys2Proof

/-! ### The number of one bits (R7) -/

@[simp] theorem popcount_zero : popcount 0 = 0 := rfl

/-- The one bits of a number are those of its half and the lowest bit. -/
theorem popcount_eq_add_div_two (x : Nat) : popcount x = popcount (x / 2) + x % 2 := by
  by_cases h : 2 ≤ x
  · have hbits : (x.testBit ∘ Nat.succ) = (x / 2).testBit := funext fun i => Nat.testBit_succ x i
    have hlog : x.log2 = (x / 2).log2 + 1 := by rw [Nat.log2_def, if_pos h]
    rw [popcount, popcount, hlog, List.range_succ_eq_map, List.countP_cons, List.countP_map, hbits, Nat.testBit_zero]
    rcases Nat.mod_two_eq_zero_or_one x with hx | hx <;> simp [hx]
  · interval_cases x <;> rfl

@[simp] theorem popcount_two_mul (x : Nat) : popcount (2 * x) = popcount x := by
  rw [popcount_eq_add_div_two, Nat.mul_div_cancel_left x Nat.two_pos, Nat.mul_mod_right, Nat.add_zero]

@[simp] theorem popcount_two_mul_add_one (x : Nat) : popcount (2 * x + 1) = popcount x + 1 := by
  rw [popcount_eq_add_div_two, Nat.mul_add_div Nat.two_pos, Nat.mul_add_mod]
  rfl

/-- The one bits of a number are those from bit `n` up and those below. -/
theorem popcount_two_pow_mul_add {n low : Nat} (h : low < 2 ^ n) (high : Nat) :
    popcount (2 ^ n * high + low) = popcount high + popcount low := by
  induction n generalizing low with
  | zero =>
    obtain rfl : low = 0 := by omega
    simp
  | succ n ih =>
    have hlow : low / 2 < 2 ^ n := by omega
    have hdiv : (2 ^ (n + 1) * high + low) / 2 = 2 ^ n * high + low / 2 := by
      rw [Nat.pow_succ', Nat.mul_assoc, Nat.mul_add_div Nat.two_pos]
    have hmod : (2 ^ (n + 1) * high + low) % 2 = low % 2 := by rw [Nat.pow_succ', Nat.mul_assoc, Nat.mul_add_mod]
    rw [popcount_eq_add_div_two, hdiv, hmod, ih hlow, popcount_eq_add_div_two low, Nat.add_assoc]

theorem two_pow_succ_sub_one (n : Nat) : 2 ^ (n + 1) - 1 = 2 * (2 ^ n - 1) + 1 := by
  have := Nat.two_pow_pos n
  omega

theorem popcount_two_pow_sub_one (n : Nat) : popcount (2 ^ n - 1) = n := by
  induction n with
  | zero => rfl
  | succ n ih => rw [two_pow_succ_sub_one, popcount_two_mul_add_one, ih]

/-- The least number of one popcount has its ones at the bottom. -/
theorem two_pow_popcount_le (x : Nat) : 2 ^ popcount x ≤ x + 1 := by
  induction x using Nat.evenOddRec with
  | h0 => rfl
  | h_even x ih => rw [popcount_two_mul]; omega
  | h_odd x ih => rw [popcount_two_mul_add_one, Nat.pow_succ]; omega

/-- The largest number of one popcount below a power of two has its ones at the top. -/
theorem add_two_pow_le_of_popcount {x k : Nat} (h : x < 2 ^ (popcount x + k)) : x + 2 ^ k ≤ 2 ^ (popcount x + k) := by
  induction x using Nat.evenOddRec generalizing k with
  | h0 => simp
  | h_even x ih =>
    rw [popcount_two_mul] at h ⊢
    cases k with
    | zero => exact h
    | succ k =>
      have := @ih k
      rw [← Nat.add_assoc, Nat.pow_succ] at h ⊢
      omega
  | h_odd x ih =>
    rw [popcount_two_mul_add_one, Nat.add_right_comm (popcount x), Nat.pow_succ] at h ⊢
    have := @ih k
    have := Nat.two_pow_pos k
    omega

theorem popcount_eq_zero_iff {x : Nat} : popcount x = 0 ↔ x = 0 := by
  refine ⟨fun h => ?_, fun h => h ▸ popcount_zero⟩
  induction x using Nat.evenOddRec with
  | h0 => rfl
  | h_even x ih => rw [ih (popcount_two_mul x ▸ h)]
  | h_odd x _ => rw [popcount_two_mul_add_one] at h; omega

end Sys2Proof

namespace Sys2Proof.Machine

/-! ### The lowest run of ones -/

section
variable (n c : Nat)

theorem two_pow_mul_odd_eq : 2 ^ n * (2 * c + 1) = 2 ^ (n + 1) * c + 2 ^ n := by
  rw [Nat.pow_succ, Nat.mul_add, Nat.mul_one, Nat.mul_assoc]

theorem two_pow_mul_odd_pred_eq : 2 ^ n * (2 * c + 1) - 1 = 2 ^ (n + 1) * c + (2 ^ n - 1) := by
  rw [two_pow_mul_odd_eq, Nat.add_sub_assoc Nat.one_le_two_pow]

/-- `x & (x - 1)` clears the lowest one bit of `x`. -/
theorem two_pow_mul_odd_land_pred :
    2 ^ n * (2 * c + 1) &&& (2 ^ n * (2 * c + 1) - 1) = 2 ^ (n + 1) * c := by
  have hlt : 2 ^ n < 2 ^ (n + 1) := Nat.pow_lt_pow_succ (by decide)
  refine Nat.eq_of_testBit_eq fun i => ?_
  rw [two_pow_mul_odd_pred_eq, two_pow_mul_odd_eq, Nat.testBit_and, Nat.testBit_two_pow_mul_add c hlt,
    Nat.testBit_two_pow_mul_add c (by omega), Nat.testBit_two_pow_mul, Nat.testBit_two_pow_sub_one, Nat.testBit_two_pow]
  rcases Nat.lt_trichotomy i n with hi | rfl | hi
  · simp [hi.not_gt, hi.ne', Nat.lt_succ_of_lt hi]
  · simp
  · simp [hi, Nat.not_lt.mpr hi]

/-- `x ^ (x - 1)` is the lowest one bit of `x` and everything below. -/
theorem two_pow_mul_odd_pred_xor :
    (2 ^ n * (2 * c + 1) - 1) ^^^ 2 ^ n * (2 * c + 1) = 2 ^ (n + 1) - 1 := by
  have hlt : 2 ^ n < 2 ^ (n + 1) := Nat.pow_lt_pow_succ (by decide)
  refine Nat.eq_of_testBit_eq fun i => ?_
  rw [two_pow_mul_odd_pred_eq, two_pow_mul_odd_eq, Nat.testBit_xor, Nat.testBit_two_pow_mul_add c hlt,
    Nat.testBit_two_pow_mul_add c (by omega), Nat.testBit_two_pow_sub_one, Nat.testBit_two_pow_sub_one,
    Nat.testBit_two_pow]
  rcases Nat.lt_trichotomy i n with hi | rfl | hi
  · simp [hi, hi.ne', Nat.lt_succ_of_lt hi]
  · simp
  · simp [Nat.not_lt.mpr hi]

end

/-- The number with `m + 1` ones from bit `t` up, a zero above them, and the bits of `c` above that. -/
def withLowestRun (t m c : Nat) : Nat := 2 ^ t * (2 ^ (m + 1) * (2 * c + 1) - 1)

theorem exists_lowestRun {x : Nat} (h : 0 < x) : ∃ t m c, x = withLowestRun t m c := by
  obtain ⟨t, odd, hodd, rfl⟩ := Nat.exists_eq_two_pow_mul_odd h.ne'
  obtain ⟨n, _, ⟨c, rfl⟩, hrun⟩ := Nat.exists_eq_two_pow_mul_odd (Nat.succ_ne_zero odd)
  cases n with
  | zero =>
    obtain ⟨d, rfl⟩ := hodd
    omega
  | succ m => exact ⟨t, m, c, by rw [withLowestRun, ← hrun, Nat.succ_sub_one]⟩

section
variable (t m c : Nat)

/-- Adding the lowest bit ripples the carry through the run. -/
theorem withLowestRun_add_two_pow : withLowestRun t m c + 2 ^ t = 2 ^ (t + (m + 1)) * (2 * c + 1) := by
  rw [Nat.pow_add, Nat.mul_assoc, withLowestRun, ← Nat.mul_add_one,
    Nat.sub_add_cancel (Nat.mul_pos (Nat.two_pow_pos _) (Nat.succ_pos _))]

/-- The ones that the formula puts at the bottom are below the carry. -/
theorem two_pow_sub_one_lt_carry : 2 ^ m - 1 < 2 ^ (t + (m + 1)) :=
  (Nat.sub_one_lt (Nat.two_pow_pos m).ne').trans_le (Nat.pow_le_pow_right Nat.two_pos (by omega))

theorem popcount_withLowestRun : popcount (withLowestRun t m c) = popcount c + (m + 1) := by
  have hlow : 2 ^ (m + 1) - 1 < 2 ^ (m + 1 + 1) := by have := Nat.two_pow_pos (m + 1); rw [Nat.pow_succ]; omega
  rw [withLowestRun, ← Nat.add_zero (2 ^ t * _), popcount_two_pow_mul_add (Nat.two_pow_pos t), popcount_zero,
    Nat.add_zero, two_pow_mul_odd_pred_eq, popcount_two_pow_mul_add hlow, popcount_two_pow_sub_one]

/-- The formula of R240 moves the highest one of the run up by one and the others to the bottom. -/
theorem nextComb_withLowestRun :
    nextComb (withLowestRun t m c) = 2 ^ (t + (m + 1)) * (2 * c + 1) + (2 ^ m - 1) := by
  have hripple := withLowestRun_add_two_pow t m c
  have hpow := Nat.two_pow_pos t
  obtain ⟨d, hodd⟩ : ∃ d, withLowestRun t m c = 2 ^ t * (2 * d + 1) :=
    ⟨_, by rw [withLowestRun, two_pow_mul_odd_pred_eq, two_pow_succ_sub_one, Nat.pow_succ', Nat.mul_assoc,
      ← Nat.add_assoc, ← Nat.mul_add]⟩
  have hpos : withLowestRun t m c ≠ 0 := hodd ▸ (Nat.mul_pos hpow (Nat.succ_pos _)).ne'
  have hlow : withLowestRun t m c - (withLowestRun t m c &&& (withLowestRun t m c - 1)) = 2 ^ t := by
    rw [hodd, two_pow_mul_odd_land_pred, two_pow_mul_odd_eq, Nat.add_sub_cancel_left]
  have hfill : (withLowestRun t m c ^^^ (withLowestRun t m c + 2 ^ t)) >>> 2 / 2 ^ t = 2 ^ m - 1 := by
    rw [hripple, Nat.pow_add, Nat.mul_assoc, withLowestRun, Nat.shiftRight_eq_div_pow, Nat.div_right_comm,
      Nat.xor_div_two_pow, Nat.mul_div_cancel_left _ hpow, Nat.mul_div_cancel_left _ hpow, two_pow_mul_odd_pred_xor,
      Nat.pow_succ, Nat.pow_succ]
    omega
  rw [nextComb, if_neg hpos]
  simp only [hlow, hfill]
  rw [hripple, ← Nat.two_pow_add_eq_or_of_lt (two_pow_sub_one_lt_carry t m)]

theorem lt_nextComb_withLowestRun : withLowestRun t m c < nextComb (withLowestRun t m c) := by
  have hpow := Nat.two_pow_pos t
  rw [nextComb_withLowestRun, ← withLowestRun_add_two_pow]
  omega

theorem popcount_nextComb_withLowestRun :
    popcount (nextComb (withLowestRun t m c)) = popcount (withLowestRun t m c) := by
  rw [nextComb_withLowestRun, popcount_two_pow_mul_add (two_pow_sub_one_lt_carry t m), popcount_two_mul_add_one,
    popcount_two_pow_sub_one, popcount_withLowestRun, Nat.add_assoc, Nat.add_comm 1]

/-- A greater number with as many ones has at least `2 c + 1` in the bits above the run: with `2 c` there, `m + 1` ones
are left for the bits below, and the run has them at the top already. With `2 c + 1` there, `m` ones are left. -/
theorem nextComb_withLowestRun_le {y : Nat} (hlt : withLowestRun t m c < y)
    (hpop : popcount y = popcount (withLowestRun t m c)) : nextComb (withLowestRun t m c) ≤ y := by
  obtain ⟨high, low, hlow, rfl⟩ : ∃ high low, low < 2 ^ (t + (m + 1)) ∧ y = 2 ^ (t + (m + 1)) * high + low :=
    ⟨_, _, Nat.mod_lt y (Nat.two_pow_pos _), (Nat.div_add_mod y _).symm⟩
  have hrun := withLowestRun_add_two_pow t m c
  have hpow : 2 ^ t ≤ 2 ^ (t + (m + 1)) := Nat.pow_le_pow_right Nat.two_pos (Nat.le_add_right t _)
  rw [popcount_withLowestRun, popcount_two_pow_mul_add hlow] at hpop
  rw [nextComb_withLowestRun]
  obtain hhigh | rfl | rfl | hhigh : high < 2 * c ∨ high = 2 * c ∨ high = 2 * c + 1 ∨ 2 * c + 1 < high := by omega
  · have hle := Nat.mul_le_mul_left (2 ^ (t + (m + 1))) (Nat.succ_le_of_lt hhigh)
    rw [Nat.mul_succ] at hle hrun
    omega
  · rw [popcount_two_mul] at hpop
    have htop := add_two_pow_le_of_popcount (x := low) (k := t)
    rw [Nat.add_left_cancel hpop, Nat.add_comm _ t] at htop
    have := htop hlow
    rw [Nat.mul_succ] at hrun
    omega
  · rw [popcount_two_mul_add_one] at hpop
    have hbottom := two_pow_popcount_le low
    rw [show popcount low = m by omega] at hbottom
    omega
  · have hle := Nat.mul_le_mul_left (2 ^ (t + (m + 1))) (Nat.succ_le_of_lt hhigh)
    have := two_pow_sub_one_lt_carry t m
    rw [Nat.mul_succ] at hle
    omega

end

/-- Settles O38: every positive number is its lowest run of ones, a zero and the bits above, and on such a number the
formula has the three properties. -/
theorem nextCombIsLeast : Obligations.NextCombIsLeast := by
  refine ⟨rfl, fun x hx => ?_⟩
  obtain ⟨t, m, c, rfl⟩ := exists_lowestRun hx
  exact ⟨lt_nextComb_withLowestRun t m c, popcount_nextComb_withLowestRun t m c,
    fun y => nextComb_withLowestRun_le t m c⟩

/-! ### NEXTCOMB (R241) -/

/-- Twice a number has as many ones, so the next number with as many is at most that. -/
theorem nextComb_le_two_mul (x : Nat) : nextComb x ≤ 2 * x := by
  rcases Nat.eq_zero_or_pos x with rfl | hx
  · rfl
  · obtain ⟨-, -, hleast⟩ := nextCombIsLeast.2 x hx
    exact hleast (2 * x) (by omega) (popcount_two_mul x)

/-- Settles O39: the mask is tested first, and the result of a legal one is at most twice the mask. -/
theorem nextcombCommand : Obligations.NextcombCommand := by
  intro s x hr
  refine ⟨rfl, fun hlegal => ⟨?_, ?_⟩, fun hillegal => ?_⟩
  · have hle := nextComb_le_two_mul x.toNat
    omega
  · rw [exec, execNextcomb, plainCommand_running hr, legalMask, decide_eq_true hlegal]
    rfl
  · rw [exec, execNextcomb, plainCommand_running hr, legalMask, decide_eq_false (Nat.not_lt.mpr hillegal),
      raiseFault_running hr]
    rfl

/-! ### The enumeration (R242) -/

/-- From a mask, the masks below the limit are the numbers from it up with as many ones. -/
theorem mem_masksFrom {fuel limit m : Nat} (hpos : 0 < m) (hfuel : limit ≤ m + fuel) (n : Nat) :
    n ∈ masksFrom fuel limit m ↔ m ≤ n ∧ n < limit ∧ popcount n = popcount m := by
  induction fuel generalizing m with
  | zero =>
    simp only [masksFrom, List.not_mem_nil, false_iff]
    omega
  | succ fuel ih =>
    obtain ⟨hlt, hpop, hleast⟩ := nextCombIsLeast.2 m hpos
    by_cases hm : m < limit
    · rw [masksFrom, if_pos hm, List.mem_cons, ih (by omega) (by omega), hpop]
      constructor
      · rintro (rfl | ⟨hle, hn, hcount⟩)
        · exact ⟨Nat.le_refl n, hm, rfl⟩
        · exact ⟨by omega, hn, hcount⟩
      · rintro ⟨hle, hn, hcount⟩
        rcases Nat.eq_or_lt_of_le hle with rfl | hgt
        · exact .inl rfl
        · exact .inr ⟨hleast n hgt hcount, hn, hcount⟩
    · rw [masksFrom, if_neg hm]
      simp only [List.not_mem_nil, false_iff]
      omega

/-- The masks of one run of the inner loop ascend. -/
theorem masksFrom_pairwise {fuel limit m : Nat} (hpos : 0 < m) (hfuel : limit ≤ m + fuel) :
    (masksFrom fuel limit m).Pairwise (· < ·) := by
  induction fuel generalizing m with
  | zero => exact .nil
  | succ fuel ih =>
    obtain ⟨hlt, -, -⟩ := nextCombIsLeast.2 m hpos
    rw [masksFrom]
    split
    · have hfuel' : limit ≤ nextComb m + fuel := by omega
      refine .cons (fun n hn => ?_) (ih (by omega) hfuel')
      obtain ⟨hle, -, -⟩ := (mem_masksFrom (by omega) hfuel' n).mp hn
      omega
    · exact .nil

/-- The masks of popcount `p + 1`, which R242 visits in one run of its inner loop. -/
theorem mem_masksFrom_two_pow_sub_one (k p n : Nat) :
    n ∈ masksFrom (2 ^ k) (2 ^ k) (2 ^ (p + 1) - 1) ↔ n < 2 ^ k ∧ popcount n = p + 1 := by
  have := Nat.two_pow_pos p
  rw [mem_masksFrom (by rw [Nat.pow_succ]; omega) (Nat.le_add_left ..), popcount_two_pow_sub_one]
  refine ⟨And.right, fun ⟨hn, hcount⟩ => ⟨?_, hn, hcount⟩⟩
  have hleast := two_pow_popcount_le n
  rw [hcount] at hleast
  omega

theorem mem_candidates (k n : Nat) : n ∈ candidates k ↔ 0 < n ∧ n < 2 ^ k := by
  simp only [candidates, List.mem_flatMap, List.mem_range, mem_masksFrom_two_pow_sub_one]
  constructor
  · rintro ⟨p, -, hn, hcount⟩
    refine ⟨Nat.pos_of_ne_zero fun h => ?_, hn⟩
    rw [popcount_eq_zero_iff.mpr h] at hcount
    omega
  · rintro ⟨hpos, hn⟩
    have hcount : popcount n ≠ 0 := popcount_eq_zero_iff.not.mpr hpos.ne'
    have hle : popcount n ≤ k := (Nat.pow_le_pow_iff_right (by decide)).mp ((two_pow_popcount_le n).trans hn)
    exact ⟨popcount n - 1, by omega, hn, by omega⟩

theorem candidates_pairwise (k : Nat) :
    (candidates k).Pairwise fun a b => popcount a < popcount b ∨ (popcount a = popcount b ∧ a < b) := by
  refine List.pairwise_flatMap.mpr ⟨fun p _ => ?_, ?_⟩
  · have hpos : 0 < 2 ^ (p + 1) - 1 := by rw [two_pow_succ_sub_one]; omega
    refine (masksFrom_pairwise hpos (Nat.le_add_left ..)).imp_of_mem fun ha hb hlt => .inr ⟨?_, hlt⟩
    rw [mem_masksFrom_two_pow_sub_one] at ha hb
    rw [ha.2, hb.2]
  · refine List.pairwise_lt_range.imp fun hlt a ha b hb => .inl ?_
    rw [mem_masksFrom_two_pow_sub_one] at ha hb
    omega

theorem candidates_nodup (k : Nat) : (candidates k).Nodup :=
  (candidates_pairwise k).imp fun h heq => by subst heq; omega

theorem length_candidates (k : Nat) : (candidates k).length = 2 ^ k - 1 := by
  have hperm : (candidates k).Perm (List.range' 1 (2 ^ k - 1)) :=
    (List.perm_ext_iff_of_nodup (candidates_nodup k) List.nodup_range').mpr fun n => by
      rw [mem_candidates, List.mem_range'_1]
      omega
  rw [hperm.length_eq, List.length_range']

/-- With the lowest `i` bits of the mask used up, the list index of the next position is `i`. -/
theorem selected_div_two_pow (m i : Nat) (ps : List (Fin 112)) :
    selected (m / 2 ^ i) ps = ((ps.zipIdx i).filter fun x => m.testBit x.2).map (·.1) := by
  induction ps generalizing i with
  | nil => rfl
  | cons p ps ih =>
    have hhalf : m / 2 ^ i / 2 = m / 2 ^ (i + 1) := by rw [Nat.div_div_eq_div_mul, Nat.pow_succ]
    rw [selected, hhalf, ih, List.zipIdx_cons, List.filter_cons, Nat.testBit_eq_decide_div_mod_eq]
    by_cases hbit : m / 2 ^ i % 2 = 1 <;> simp [hbit]

/-- Settles O40: each run of the inner loop lists one popcount in order (`mem_masksFrom`, `masksFrom_pairwise`); the
order makes the masks distinct, so there are as many as numbers from 1 to `2 ^ k - 1`. -/
theorem candidateOrder : Obligations.CandidateOrder := fun k =>
  ⟨mem_candidates k, candidates_pairwise k, length_candidates k, fun m ps => by
    simpa using selected_div_two_pow m 0 ps⟩

/-! ### The search (R243) -/

/-- What the search ends with when these are the matches. -/
def SearchResult.ofMatches : List Nat → SearchResult
  | [] => .unsolvable
  | [m] => .single m
  | _ :: _ :: _ => .ambiguous

/-- Flipping the positions that the mask selects makes the syndrome 0 (R243). -/
def cancels (table : Vector Word24 112) (syndrome : Word24) (positions : List (Fin 112)) (m : Nat) : Bool :=
  decide (flippedSyndrome table syndrome (selected m positions) = 0)

theorem cancels_iff {table : Vector Word24 112} {syndrome : Word24} {positions : List (Fin 112)} {m : Nat} :
    cancels table syndrome positions m = true ↔ flippedSyndrome table syndrome (selected m positions) = 0 :=
  decide_eq_true_iff

/-- The search counts the matches, the one it was given included, whatever the order of the masks. -/
theorem search_eq_ofMatches (table : Vector Word24 112) (syndrome : Word24) (positions : List (Fin 112))
    (sol : Option Nat) (masks : List Nat) :
    search table syndrome positions sol masks =
      .ofMatches (sol.toList ++ masks.filter (cancels table syndrome positions)) := by
  induction masks generalizing sol with
  | nil => cases sol <;> rfl
  | cons m masks ih =>
    by_cases hzero : flippedSyndrome table syndrome (selected m positions) = 0
    · rw [List.filter_cons_of_pos (cancels_iff.mpr hzero)]
      cases sol with
      | none => exact (if_pos hzero).trans (ih (some m))
      | some _ => exact if_pos hzero
    · rw [List.filter_cons_of_neg (cancels_iff.not.mpr hzero), ← ih]
      cases sol <;> exact if_neg hzero

section
variable {ms : List Nat}

theorem SearchResult.ofMatches_of_forall_not_mem (h : ∀ m, m ∉ ms) : ofMatches ms = .unsolvable := by
  rw [List.eq_nil_iff_forall_not_mem.mpr h, ofMatches]

theorem SearchResult.ofMatches_of_unique (hnodup : ms.Nodup) {m : Nat} (h : ∀ m', m' ∈ ms ↔ m' = m) :
    ofMatches ms = .single m := by
  have hperm : ms.Perm [m] :=
    (List.perm_ext_iff_of_nodup hnodup (List.nodup_singleton m)).mpr fun m' => (h m').trans List.mem_singleton.symm
  rw [List.perm_singleton.mp hperm, ofMatches]

theorem SearchResult.ofMatches_of_two {m m' : Nat} (h : m ∈ ms) (h' : m' ∈ ms) (hne : m ≠ m') :
    ofMatches ms = .ambiguous := by
  match ms, h, h' with
  | [_], h, h' => exact absurd ((List.mem_singleton.mp h).trans (List.mem_singleton.mp h').symm) hne
  | _ :: _ :: _, _, _ => rfl

end

/-- The masks of R242 that cancel the syndrome of the frame, in the order of the search. -/
def matchingMasks (s : State) : List Nat :=
  (candidates s.lcbTotal.val).filter (cancels s.config.parityTable (frameCrc .long s) (recordedPositions s))

theorem mem_matchingMasks {s : State} {m : Nat} : m ∈ matchingMasks s ↔ 0 < m ∧ m < 2 ^ s.lcbTotal.val ∧
    flippedSyndrome s.config.parityTable (frameCrc .long s) (selected m (recordedPositions s)) = 0 := by
  rw [matchingMasks, List.mem_filter, mem_candidates, cancels_iff, and_assoc]

theorem matchingMasks_nodup (s : State) : (matchingMasks s).Nodup := (candidates_nodup _).filter _

/-- The outcome and the state of the corrector at each end of its search (R243). -/
def SearchResult.correction (s : State) : SearchResult → Correction × State
  | .unsolvable => (.unsolvable, { s with syndrome := frameCrc .long s })
  | .single m => (.single, { s with fb := flipBits s.fb (selected m (recordedPositions s)), syndrome := 0 })
  | .ambiguous => (.ambiguous, { s with syndrome := frameCrc .long s })

/-- With a non-zero syndrome and no more low-confidence bits than LCB_LIMIT the matching masks decide. -/
theorem correctFrame_of_searched {s : State} (hsyn : frameCrc .long s ≠ 0) (hlimit : s.lcbTotal.val ≤ s.lcbLimit.val) :
    correctFrame s = (SearchResult.ofMatches (matchingMasks s)).correction s := by
  have hsearch : search s.config.parityTable (frameCrc .long s) (recordedPositions s) none
      (candidates s.lcbTotal.val) = .ofMatches (matchingMasks s) := search_eq_ofMatches ..
  simp only [correctFrame, if_neg hsyn, if_neg (Nat.not_lt.mpr hlimit), hsearch]
  cases SearchResult.ofMatches (matchingMasks s) <;> rfl

/-- Settles O41: the search ends as the list of all matching masks says (`correctFrame_of_searched`), and that list has
each of them once. -/
theorem correctByCountingMatches : Obligations.CorrectByCountingMatches := by
  intro s
  refine ⟨fun hsyn => if_pos hsyn, fun hsyn hover => (if_neg hsyn).trans (if_pos hover), fun hsyn hlimit => ?_⟩
  rw [correctFrame_of_searched hsyn hlimit]
  refine ⟨fun hnone => ?_, fun m hm hunique => ?_, fun m m' hm hm' hne => ?_⟩
  · rw [SearchResult.ofMatches_of_forall_not_mem fun m hm => hnone m (mem_matchingMasks.mp hm)]
    rfl
  · rw [SearchResult.ofMatches_of_unique (matchingMasks_nodup s) fun m' =>
      ⟨fun h => hunique m' (mem_matchingMasks.mp h), fun h => h ▸ mem_matchingMasks.mpr hm⟩]
    rfl
  · rw [SearchResult.ofMatches_of_two (mem_matchingMasks.mpr hm) (mem_matchingMasks.mpr hm') hne]
    rfl

/-! ### CORRECT (R244) -/

/-- Settles O42: KIND is tested first, and the corrector's answer does not depend on the counts that the common entry
cleared (`correctFrame_congr`). -/
theorem correctCommand : Obligations.CorrectCommand := by
  intro s hr
  refine ⟨rfl, fun hshort => ?_, fun hlong => ?_⟩
  · rw [exec, execCorrect, plainCommand_running hr, hshort, raiseFault_running hr]
    rfl
  · rw [exec, execCorrect, plainCommand_running hr, hlong,
      correctFrame_congr (s := s) (u := clearCounts s) ⟨rfl, rfl, rfl, rfl, rfl⟩, (correctFrame_frame s).1]
    cases (correctFrame s).1 <;> rfl

end Sys2Proof.Machine
end

section
/-! PROOFS. 60_exceptions.md R282 to R286: the order of the entry checks, illegal operands, what a fault leaves, and the
faulted state. -/

namespace Sys2Proof.Machine

/-! ### The entry of a window command (R130, R286) -/

/-- A window command enters through the length check, and behind it through the configuration check when it needs the
ratio. -/
theorem exec_eq_windowCommand {i : Instr} {n : Word} (h : windowOperand i = some n) (s : State) :
    ∃ body, exec i s = windowCommand n s body ∧
      (needsRatio i = true → ∀ w u, ∃ rest, body w u = configured s rest) := by
  cases i with
  | detTest _ m | runDetect m | clsFruit m | runDecode m =>
    cases h
    exact ⟨_, rfl, fun _ _ _ => ⟨_, rfl⟩⟩
  | sliceFrame m =>
    cases h
    exact ⟨_, execSliceFrame.eq_1 _ s, nofun⟩
  | _ => cases h

theorem windowCommand_of_length {s : State} {n : Word} (hr : s.Running) (hn : n.toNat = (presentedWindow s).length)
    (body : Window → State → Result) : windowCommand n s body = body (presentedWindow s) (clearCounts s) := by
  have hf : s.status.fault = false := hr
  simp [windowCommand, hf, hn]

/-- Settles O50: the two checks stand in this order at the entry of every window command (`exec_eq_windowCommand`). -/
theorem faultPriority : Obligations.FaultPriority := by
  intro i s n hr hi
  obtain ⟨body, hexec, hconfigured⟩ := exec_eq_windowCommand hi s
  rw [hexec]
  refine ⟨fun hn => windowCommand_length hr hn body, fun hn hratio hc => ?_⟩
  obtain ⟨rest, hbody⟩ := hconfigured hratio (presentedWindow s) (clearCounts s)
  rw [windowCommand_of_length hr hn, hbody, configured_of_not hr hc]

/-! ### Illegal operands (R282) -/

section
variable {s : State} (hr : s.Running)
include hr

/-- CSRWR of an unmapped or read-only register or of an illegal value faults (R133). -/
theorem execCsrwr_of_illegal {csr : Byte} {data : Word} (h : legalWrite csr data = false) :
    execCsrwr csr data s = .next (faultedBy FaultCode.badOperand.byte s) := by
  cases hn : Csr.ofNumber csr with
  | none => exact execCsrwr_of_unmapped hr data hn
  | some r =>
    have hillegal : r.legal data = false := by simpa [legalWrite, hn] using h
    exact csrwrRefusesIllegalData s csr r data hr hn hillegal

/-- NEXTCOMB of a mask of more than 24 bits faults (R241). -/
theorem execNextcomb_of_illegal {x : Word} (h : legalMask x = false) :
    execNextcomb x s = .next (faultedBy FaultCode.badOperand.byte s) := by
  rw [execNextcomb, plainCommand_running hr, if_neg (Bool.eq_false_iff.mp h), raiseFault_running hr]

end

/-- Settles O51: the five commands with an operand that can be illegal check it first. -/
theorem illFormedCommandsFault : Obligations.IllFormedCommandsFault := by
  intro i s hr hwf
  cases i with
  | csrrd csr => exact execCsrrd_of_unmapped hr (Option.not_isSome_iff_eq_none.mp (Bool.eq_false_iff.mp hwf))
  | csrwr csr data => exact execCsrwr_of_illegal hr hwf
  | anchor secs frac idx => exact execAnchor_of_illegal hr secs idx (Bool.eq_false_iff.mp hwf)
  | crcCheck length => exact execCrcCheck_of_illegal hr (Option.not_isSome_iff_eq_none.mp (Bool.eq_false_iff.mp hwf))
  | nextcomb x => exact execNextcomb_of_illegal hr hwf
  | _ => cases hwf

/-! ### What a fault leaves (R283) -/

/-- The codes that a decoded command can raise; the fourth, 0xF0, is for words that decode to none (R104, R282). -/
def commandFaults : List FaultCode := [.badOperand, .notConfigured, .windowLength]

theorem FaultCode.byte_injective {c c' : FaultCode} (h : c.byte = c'.byte) : c = c' := by
  revert h
  cases c <;> cases c' <;> decide

theorem FaultCode.byte_ne_code (c : FaultCode) (code : Code) : c.byte ≠ code.byte := by
  cases c <;> cases code <;> decide

section
variable {s : State} {c : FaultCode}

/-- A command that stopped a running core with a fault did so with one of its codes. -/
theorem Stopped.code_mem {codes : List FaultCode} (hr : s.Running) (h : Stopped s (faultedBy c.byte s) codes) :
    c ∈ codes := by
  obtain ⟨c', hmem, heq⟩ := h.faulted hr
  exact FaultCode.byte_injective (congrArg State.outcome heq) ▸ hmem

/-- A command that ends with an outcome did not fault (R105). -/
theorem faultedBy_ne_done (code : Code) (u : State) : faultedBy c.byte s ≠ done code u := fun h =>
  c.byte_ne_code code (congrArg State.outcome h)

/-- A system command that ends normally did not fault (R105). -/
theorem faultedBy_ne_respond (data : Word) (u : State) : faultedBy c.byte s ≠ respond Code.ok.byte data u := fun h =>
  c.byte_ne_code .ok (congrArg Response.code (Option.some.inj (congrArg State.response h)))

end

/-- The fault of a decoded command has one of its three codes: a command ends as `Stopped` by one of them, with an
outcome, or with response code 0. -/
theorem exec_faultedBy {i : Instr} {s : State} {c : FaultCode} (hr : s.Running)
    (h : exec i s = .next (faultedBy c.byte s)) : c ∈ commandFaults := by
  have of_stopped {codes : List FaultCode} (hcodes : codes ⊆ commandFaults)
      (hstop : Stopped s (faultedBy c.byte s) codes) : c ∈ commandFaults := hcodes (hstop.code_mem hr)
  have not_done {code : Code} {u : State} : faultedBy c.byte s ≠ done code u := faultedBy_ne_done code u
  have not_respond {data : Word} {u : State} : faultedBy c.byte s ≠ respond Code.ok.byte data u :=
    faultedBy_ne_respond data u
  cases i with
  | reset => exact absurd (execReset_next h) not_respond
  | csrrd csr =>
    rcases execCsrrd_next h with ⟨-, heq⟩ | ⟨v, -, heq⟩
    · rw [raiseFault_running hr] at heq
      exact of_stopped (by decide) (.inr ⟨hr, .badOperand, List.mem_singleton_self _, heq⟩)
    · exact absurd heq not_respond
  | csrwr csr data =>
    exact of_stopped (by decide) ((execCsrwr_next h).resolve_right fun ⟨_, _, _, _, heq⟩ => not_respond heq).1
  | anchor secs frac idx =>
    exact of_stopped (by decide) ((execAnchor_next h).resolve_right fun ⟨_, _, heq⟩ => not_respond heq).1
  | crcCheck length =>
    exact of_stopped (by decide) ((execCrcCheck_next h).resolve_right fun ⟨_, _, _, heq⟩ => not_done heq)
  | sliceBit e0 e1 ref =>
    exact of_stopped (by decide) ((execSliceBit_next h).resolve_right fun ⟨_, heq⟩ => not_done heq)
  | clsKind hdr =>
    exact of_stopped (by decide) ((execClsKind_next h).resolve_right fun ⟨_, heq⟩ => not_done heq)
  | validate =>
    exact of_stopped (by decide) ((execValidate_next h).resolve_right fun ⟨_, heq⟩ => not_done heq)
  | nextcomb x =>
    exact of_stopped (by decide) ((execNextcomb_next h).resolve_right fun ⟨_, _, heq⟩ => not_done heq)
  | correct =>
    exact of_stopped (by decide) ((execCorrect_next h).resolve_right fun ⟨_, _, heq⟩ => not_done heq)
  | detTest j n =>
    rcases execDetTest_next h with hstop | ⟨-, -, -, r, -, heq⟩
    · exact of_stopped (by decide) hstop
    · cases r <;> exact absurd heq not_done
  | runDetect n =>
    rcases execRunDetect_next h with hstop | ⟨-, -, -, r, -, heq⟩
    · exact of_stopped (by decide) hstop
    · cases r <;> exact absurd heq not_done
  | sliceFrame n =>
    rcases execSliceFrame_next h with hstop | ⟨-, -, heq⟩ | ⟨-, -, u, -, heq⟩
    · exact of_stopped (by decide) hstop
    · exact absurd heq not_done
    · exact absurd heq not_done
  | clsFruit n =>
    rcases execClsFruit_next h with hstop | ⟨-, -, -, heq⟩ | ⟨-, -, -, hit, -, heq⟩
    · exact of_stopped (by decide) hstop
    · exact absurd heq not_done
    · cases hit <;> exact absurd heq not_done
  | runDecode n =>
    rcases execRunDecode_next h with hstop | ⟨-, -, -, ⟨-, heq⟩ | ⟨c', -, heq⟩ | ⟨i, ref, c', v, -, -, heq⟩⟩
    · exact of_stopped (by decide) hstop
    · exact absurd heq not_done
    · exact absurd heq not_done
    · exact absurd heq not_done

/-- Settles O49: FAULT is set by a fault only (`Effect.fault_iff`), and its code is one of the three
(`exec_faultedBy`). -/
theorem faultEntryKeepsTheState : Obligations.FaultEntryKeepsTheState := by
  intro i s t hr h hfault
  have hreset : i ≠ .reset := by
    rintro rfl
    rw [execReset_next h] at hfault
    cases hfault
  obtain ⟨c, rfl⟩ := ((exec_effect h).fault_iff hr hreset).mp hfault
  refine ⟨c, ?_, rfl⟩
  rintro rfl
  exact absurd (exec_faultedBy hr h) (by decide)

/-! ### The faulted state (R284) -/

/-- The entry of every command but RESET and CSRRD refuses it (R130). -/
theorem exec_of_faulted {i : Instr} {s : State} (hf : s.status.fault = true) (hreset : i ≠ .reset)
    (hcsrrd : ∀ csr, i ≠ .csrrd csr) : exec i s = .next (refuse s) := by
  cases i with
  | reset => exact absurd rfl hreset
  | csrrd csr => exact absurd rfl (hcsrrd csr)
  | csrwr | anchor => exact systemCommand_faulted hf _
  | crcCheck | sliceBit | clsKind | validate | nextcomb | correct =>
    simp only [exec, execCrcCheck, execSliceBit, execClsKind, execValidate, execNextcomb, execCorrect,
      plainCommand_faulted hf]
  | detTest | runDetect | sliceFrame | clsFruit | runDecode =>
    simp only [exec, execDetTest, execRunDetect, execSliceFrame, execClsFruit, execRunDecode, windowCommand_faulted hf]

/-- CSRRD gives a response and nothing else (R132). -/
theorem execCsrrd_of_faulted {s : State} (hf : s.status.fault = true) (csr : Byte) :
    execCsrrd csr s = .next { s with response := some ((readCsr csr s).elim ⟨0xF1, 0⟩ fun d => ⟨0x00, d⟩) } := by
  rw [execCsrrd]
  cases readCsr csr s with
  | none => exact congrArg _ (raiseFault_faulted hf .badOperand)
  | some d => rfl

/-- Settles O48: the entries refuse (`exec_of_faulted`), CSRRD has none, RESET clears FAULT with every other register,
and a call that does not decode is refused and retired. -/
theorem faultedCoreRefuses : Obligations.FaultedCoreRefuses := by
  intro s hf
  refine ⟨fun i => exec_of_faulted hf, fun csr => ⟨_, execCsrrd_of_faulted hf csr, ?_, ?_⟩, ⟨_, rfl, rfl⟩,
    fun w ops window later hcalls hd => ?_⟩
  · intro hnone
    rw [hnone, Option.elim_none]
  · intro d hd
    rw [hd, Option.elim_some]
  · rw [step_of_decode_error hcalls hd, rejectCall_illegal_faulted hf, retire, retireCall]
    simp only [refuse, respond, hcalls, List.tail_cons, Code.byte]

end Sys2Proof.Machine
end

section
/-! PROOFS. 47_pipeline.md R260 to R264: RUN.DECODE, the registers it writes, what the RUN commands consume, and
RUN.DECODE as a sequence of commands. -/

namespace Sys2Proof.Machine

/-! ### The counts take no part in decoding a burst -/

section
variable (consumed produced : Word)

theorem sliceFrame_counted (w : Window) (i : Nat) (ref : Word) (s : State) :
    sliceFrame w i ref (counted consumed produced s) = (sliceFrame w i ref s).map (counted consumed produced) := by
  rw [sliceFrame_congr (s := s) (u := counted consumed produced s) ⟨rfl, rfl, rfl, rfl, rfl⟩]
  refine Option.map_congr fun t ht => ?_
  rw [sliceFrame_frame ht]
  rfl

theorem validateFrame_counted (s : State) : validateFrame (counted consumed produced s) =
    ((validateFrame s).1, counted consumed produced (validateFrame s).2) := by
  rw [validateFrame_congr (s := s) (u := counted consumed produced s) ⟨rfl, rfl, rfl, rfl, rfl⟩ rfl rfl rfl,
    validateFrame_frame s]
  rfl

theorem judgeFrame_counted (hit : Option Nat) (s : State) : judgeFrame hit (counted consumed produced s) =
    ((judgeFrame hit s).1, counted consumed produced (judgeFrame hit s).2) := by
  cases hit with
  | some j => rfl
  | none => exact validateFrame_counted consumed produced (setFruited false s)

/-- Decoding a burst is slicing, the fruit scan and the verdict (R260). -/
theorem decodeBurst_eq_some_iff {w : Window} {i : Nat} {ref : Word} {s : State} {v : Code × State} :
    decodeBurst w i ref s = some v ↔ ∃ t hit, sliceFrame w i ref (setBurst i ref (timestamp i s)) = some t ∧
      fruit t w i t.kind = some hit ∧ judgeFrame hit t = v := by
  simp only [decodeBurst, Option.bind_eq_bind, Option.bind_eq_some_iff, Option.pure_def, Option.some.injEq,
    exists_and_left]

theorem decodeBurst_counted {w : Window} {i : Nat} {ref : Word} {s : State} {v : Code × State}
    (h : decodeBurst w i ref s = some v) :
    decodeBurst w i ref (counted consumed produced s) = some (v.1, counted consumed produced v.2) := by
  obtain ⟨t, hit, ht, hhit, rfl⟩ := decodeBurst_eq_some_iff.mp h
  refine decodeBurst_eq_some_iff.mpr
    ⟨counted consumed produced t, hit, ?_,
      (fruit_congr (s := t) (u := counted consumed produced t) rfl rfl rfl w i t.kind).trans hhit,
      judgeFrame_counted _ _ hit t⟩
  rw [timestamp_counted]
  exact (sliceFrame_counted consumed produced w i ref _).trans (congrArg _ ht)

end

/-! ### RUN.DECODE, one equation for each result of the scan (R260) -/

/-- PRODUCED is 1 on the outcomes 0x10 and 0x11 (R260, R262). -/
theorem packetCount_eq (code : Code) :
    BitVec.ofNat 32 (packetCount code) = if code.byte = (0x10 : Byte) ∨ code.byte = (0x11 : Byte) then 1 else 0 := by
  cases code <;> decide

/-- The end of RUN.DECODE writes the counts, ABS_COUNT and the outcome. -/
theorem finishDecode_eq (c : Nat) (v : Code × State) : finishDecode c v =
    endedWith v.1.byte (counted (BitVec.ofNat 32 c)
      (if v.1.byte = (0x10 : Byte) ∨ v.1.byte = (0x11 : Byte) then 1 else 0)
      { v.2 with absCount := v.2.absCount + BitVec.ofNat 64 c }) := by
  rw [finishDecode, advanceCount_eq, ← packetCount_eq]
  rfl

section
variable {s : State} {n : Word} (hr : s.Running) (hp : s.Presents n) (hc : s.status.cfgValid = true)
include hr hp hc

theorem exec_runDecode_of_insufficient (hscan : scan s (presentedWindow s) = some .insufficient) :
    exec (.runDecode n) s = .next (endedWith 0x01 (counted 0 0 s)) := by
  rw [exec, execRunDecode, windowCommand_running hr hp, configured_of_valid hc,
    scan_congr (s := s) (u := clearCounts s) rfl rfl rfl, hscan]
  rfl

theorem exec_runDecode_of_noBurst {c : Nat} (hscan : scan s (presentedWindow s) = some (.noBurst c)) :
    exec (.runDecode n) s = .next (endedWith 0x02 (counted (BitVec.ofNat 32 c) 0
      { s with absCount := s.absCount + BitVec.ofNat 64 c })) := by
  rw [exec, execRunDecode, windowCommand_running hr hp, configured_of_valid hc,
    scan_congr (s := s) (u := clearCounts s) rfl rfl rfl, hscan]
  simp only [advanceCount_eq]
  rfl

theorem exec_runDecode_of_burst {i c : Nat} {ref : Word}
    (hscan : scan s (presentedWindow s) = some (.burst i ref c)) :
    ∃ v, decodeBurst (presentedWindow s) i ref s = some v ∧ exec (.runDecode n) s = .next (finishDecode c v) := by
  obtain ⟨v, hv⟩ := decodeBurst_answers ref (spc_pos_of_presents hp) (scan_burst_fits hscan)
  refine ⟨v, hv, ?_⟩
  rw [exec, execRunDecode, windowCommand_running hr hp, configured_of_valid hc,
    scan_congr (s := s) (u := clearCounts s) rfl rfl rfl, hscan]
  exact congrArg (withRead · (finishDecode c)) (decodeBurst_counted 0 0 hv)

end

/-- Settles O43: the scan always answers (`scan_answers`), and each answer is one end of the command; decoding a burst
leaves ABS_COUNT (`decodeBurst_spec`). -/
theorem runDecodeCommand : Obligations.RunDecodeCommand := by
  intro s n hr hp
  refine ⟨rfl, fun hc => ?_, fun hc => ?_⟩
  · rw [exec, execRunDecode, windowCommand_running hr hp, configured_of_not hr hc]
  · obtain ⟨r, hscan⟩ := scan_answers (spc_pos_of_presents hp) (presentedWindow s)
    refine ⟨r, hscan, ?_⟩
    cases r with
    | insufficient => exact exec_runDecode_of_insufficient hr hp hc hscan
    | noBurst c => exact exec_runDecode_of_noBurst hr hp hc hscan
    | burst i ref c =>
      obtain ⟨v, hv, hexec⟩ := exec_runDecode_of_burst hr hp hc hscan
      obtain ⟨t, hit, ht, hhit, hjudge, hframe⟩ := decodeBurst_spec hv
      have habs : v.2.absCount = s.absCount := by rw [hframe]
      refine ⟨t, hit, ht, hhit, ?_⟩
      rw [hexec, finishDecode_eq, habs, hjudge]
      cases hit <;> rfl

/-! ### The registers RUN.DECODE writes (R260) -/

/-- A frame that is discarded before the parity check leaves SYNDROME (R220 (e), R260). -/
theorem judgeFrame_syndrome {hit : Option Nat} {s : State} (h : (judgeFrame hit s).1.byte = 0x20 ∨
    (judgeFrame hit s).1.byte = 0x21 ∨ (judgeFrame hit s).1.byte = 0x22 ∨ (judgeFrame hit s).1.byte = 0x23) :
    (judgeFrame hit s).2.syndrome = s.syndrome := by
  cases hit with
  | some j => rfl
  | none =>
    have hverdict := validateFrame_verdict (setFruited false s)
    have hunfruited : (judgeFrame none s).1.byte ≠ 0x21 := fun h21 =>
      nomatch (verdict_byte (fruited := false) (judgeFrame_code none s)).2.2.mpr h21
    exact hverdict.syndrome_eq (mem_gateCodes_of_byte (h.imp_right fun h => h.resolve_left hunfruited))

/-- Up to the verdict nothing writes SYNDROME (R260). -/
theorem decodeBurst_syndrome {w : Window} {i : Nat} {ref : Word} {s : State} {v : Code × State}
    (h : decodeBurst w i ref s = some v)
    (hcode : v.1.byte = 0x20 ∨ v.1.byte = 0x21 ∨ v.1.byte = 0x22 ∨ v.1.byte = 0x23) :
    v.2.syndrome = s.syndrome := by
  obtain ⟨t, hit, ht, -, rfl, -⟩ := decodeBurst_spec h
  rw [judgeFrame_syndrome hcode, sliceFrame_frame ht, timestamp_frame]
  rfl

/-- The verdict on a decoded burst is none of the detector's codes (R106, R260). -/
theorem decodeBurst_byte {w : Window} {i : Nat} {ref : Word} {s : State} {v : Code × State}
    (h : decodeBurst w i ref s = some v) : v.1.byte ≠ 0x01 ∧ v.1.byte ≠ 0x02 ∧ v.1.byte ≠ 0x03 := by
  obtain ⟨t, hit, -, -, rfl, -⟩ := decodeBurst_spec h
  cases hit with
  | some j => exact (by decide : Code.fruitedFrame.byte ≠ 0x01 ∧ Code.fruitedFrame.byte ≠ 0x02 ∧
      Code.fruitedFrame.byte ≠ 0x03)
  | none =>
    have hcodes : ∀ c ∈ validatorCodes, c.byte ≠ 0x01 ∧ c.byte ≠ 0x02 ∧ c.byte ≠ 0x03 := by decide
    exact hcodes _ (validateFrame_code _)

/-- The samples that a scan consumes (R171, R263). -/
def ScanResult.samples : ScanResult → Nat
  | .insufficient => 0
  | .noBurst c => c
  | .burst _ _ c => c

/-- A number that is at most `N` fits a word (R13 (a)). -/
theorem toNat_ofNat_of_le {n : Word} {x : Nat} (h : x ≤ n.toNat) : (BitVec.ofNat 32 x).toNat = x :=
  Nat.mod_eq_of_lt (h.trans_lt n.isLt)

section
variable {s : State} {n : Word} {r : ScanResult} (hp : s.Presents n) (hscan : scan s (presentedWindow s) = some r)
include hp hscan

/-- A scan consumes at most the window (R263). -/
theorem samples_le_of_scan : r.samples ≤ n.toNat := by
  have hspc := spc_pos_of_presents hp
  have hfirst := scanFindsTheFirstBurst s _ r hscan
  rw [hp.length]
  cases r with
  | insufficient => exact Nat.zero_le _
  | noBurst c =>
    obtain ⟨hlook, hcount, -⟩ := hfirst
    rw [ScanResult.samples]
    omega
  | burst i ref c => exact hfirst.2.1

/-- So their number fits CONSUMED, which then advances ABS_COUNT by as many. -/
theorem toNat_ofNat_samples : (BitVec.ofNat 32 r.samples).toNat = r.samples :=
  toNat_ofNat_of_le (samples_le_of_scan hp hscan)

theorem setWidth_ofNat_samples : (BitVec.ofNat 32 r.samples).setWidth 64 = BitVec.ofNat 64 r.samples := by
  apply BitVec.eq_of_toNat_eq
  rw [BitVec.toNat_setWidth, toNat_ofNat_samples hp hscan, BitVec.toNat_ofNat]

end

/-- Settles O44: without a burst the next state is given; with one, `decodeBurst_spec` is the frame, and the codes of
a verdict are none of a window without a burst. -/
theorem runDecodeFrame : Obligations.RunDecodeFrame := by
  intro s t n hr hp hc h
  obtain ⟨r, hscan⟩ := scan_answers (spc_pos_of_presents hp) (presentedWindow s)
  cases r with
  | insufficient =>
    cases h.symm.trans (exec_runDecode_of_insufficient hr hp hc hscan)
    exact ⟨rfl, fun _ => rfl, nofun, fun _ => rfl⟩
  | noBurst c =>
    cases h.symm.trans (exec_runDecode_of_noBurst hr hp hc hscan)
    have hadvance := setWidth_ofNat_samples hp hscan
    refine ⟨rfl, nofun, fun _ => ?_, fun _ => rfl⟩
    rw [ScanResult.samples] at hadvance
    rw [← hadvance]
    rfl
  | burst i ref c =>
    obtain ⟨v, hv, hexec⟩ := exec_runDecode_of_burst hr hp hc hscan
    cases h.symm.trans hexec
    obtain ⟨hne1, hne2, -⟩ := decodeBurst_byte hv
    obtain ⟨_, _, -, -, -, hframe⟩ := decodeBurst_spec hv
    refine ⟨?_, fun h1 => absurd h1 hne1, fun h2 => absurd h2 hne2, decodeBurst_syndrome hv⟩
    rw [finishDecode, hframe]
    rfl

/-! ### What the RUN commands consume (R263) -/

/-- The outcome and PRODUCED that a RUN command leaves, and BURST_OFFSET when there is a burst (R173, R260). -/
def EndsScan (t : State) : ScanResult → Prop
  | .insufficient => t.outcome = 0x01 ∧ t.produced = 0
  | .noBurst _ => t.outcome = 0x02 ∧ t.produced = 0
  | .burst i _ _ => t.outcome ≠ 0x02 ∧ t.burstOffset = BitVec.ofNat 32 i ∧
      t.produced = if t.outcome = 0x03 ∨ t.outcome = 0x10 ∨ t.outcome = 0x11 then 1 else 0

/-- A RUN command consumes the samples of its scan (R173, R260). -/
structure Consumes (s t : State) (r : ScanResult) : Prop where
  consumed : t.consumed = BitVec.ofNat 32 r.samples
  absCount : t.absCount = s.absCount + BitVec.ofNat 64 r.samples
  ends : EndsScan t r

section
variable {s t : State} {n : Word} (hr : s.Running) (hp : s.Presents n) (hc : s.status.cfgValid = true)
include hr hp hc

theorem runDetect_consumes (h : exec (.runDetect n) s = .next t) :
    ∃ r, scan s (presentedWindow s) = some r ∧ Consumes s t r := by
  obtain ⟨-, -, hvalid⟩ := runDetectCommand s n hr hp
  obtain ⟨r, hscan, -, hexec⟩ := hvalid hc
  cases h.symm.trans hexec
  refine ⟨r, hscan, ?_⟩
  cases r with
  | insufficient => exact ⟨rfl, (BitVec.add_zero _).symm, rfl, rfl⟩
  | noBurst c => exact ⟨rfl, rfl, rfl, rfl⟩
  | burst i ref c => exact ⟨rfl, rfl, nofun, rfl, rfl⟩

theorem runDecode_consumes (h : exec (.runDecode n) s = .next t) :
    ∃ r, scan s (presentedWindow s) = some r ∧ Consumes s t r := by
  obtain ⟨r, hscan⟩ := scan_answers (spc_pos_of_presents hp) (presentedWindow s)
  refine ⟨r, hscan, ?_⟩
  cases r with
  | insufficient =>
    cases h.symm.trans (exec_runDecode_of_insufficient hr hp hc hscan)
    exact ⟨rfl, (BitVec.add_zero _).symm, rfl, rfl⟩
  | noBurst c =>
    cases h.symm.trans (exec_runDecode_of_noBurst hr hp hc hscan)
    exact ⟨rfl, rfl, rfl, rfl⟩
  | burst i ref c =>
    obtain ⟨v, hv, hexec⟩ := exec_runDecode_of_burst hr hp hc hscan
    cases h.symm.trans hexec
    obtain ⟨-, hne2, hne3⟩ := decodeBurst_byte hv
    obtain ⟨_, _, -, -, -, hframe⟩ := decodeBurst_spec hv
    rw [finishDecode_eq, hframe]
    exact ⟨rfl, rfl, hne2, rfl, (if_congr (or_iff_right hne3) rfl rfl).symm⟩

end

/-- The counts of R263, for either RUN command. -/
theorem Consumes.rule {s t : State} {n : Word} {r : ScanResult} (hp : s.Presents n)
    (hscan : scan s (presentedWindow s) = some r) (h : Consumes s t r) :
    t.consumed.toNat ≤ n.toNat ∧ t.absCount = s.absCount + t.consumed.setWidth 64 ∧
    (n.toNat < 241 * s.config.spc → t.outcome = 0x01 ∧ t.consumed = 0 ∧ t.produced = 0) ∧
    (241 * s.config.spc ≤ n.toNat → t.outcome = 0x02 →
      t.consumed.toNat = n.toNat - 241 * s.config.spc + 1 ∧ t.produced = 0) ∧
    (241 * s.config.spc ≤ n.toNat → t.outcome ≠ 0x02 →
      t.consumed.toNat = t.burstOffset.toNat + 240 * s.config.spc ∧
      t.produced = (if t.outcome = 0x03 ∨ t.outcome = 0x10 ∨ t.outcome = 0x11 then 1 else 0)) := by
  obtain ⟨hconsumed, habs, hends⟩ := h
  have hle := samples_le_of_scan hp hscan
  have hsamples := toNat_ofNat_samples hp hscan
  have hfirst := scanFindsTheFirstBurst s _ r hscan
  rw [hconsumed, setWidth_ofNat_samples hp hscan, hsamples]
  refine ⟨hle, habs, ?_⟩
  rw [hp.length] at hle ⊢
  cases r with
  | insufficient =>
    obtain ⟨hout, hprod⟩ := hends
    exact ⟨fun _ => ⟨hout, rfl, hprod⟩, fun hlook => absurd hfirst (Nat.not_lt.mpr hlook),
      fun hlook => absurd hfirst (Nat.not_lt.mpr hlook)⟩
  | noBurst c =>
    obtain ⟨hout, hprod⟩ := hends
    obtain ⟨hlook, hcount, -⟩ := hfirst
    exact ⟨fun hshort => absurd hshort (Nat.not_lt.mpr hlook), fun _ _ => ⟨hcount, hprod⟩,
      fun _ hne => absurd hout hne⟩
  | burst i ref c =>
    obtain ⟨hne2, hoffset, hprod⟩ := hends
    obtain ⟨hcount, -, j, hlook, -, -⟩ := hfirst
    refine ⟨fun hshort => by omega, fun _ hout => absurd hout hne2, fun _ _ => ⟨?_, hprod⟩⟩
    have hn := n.isLt
    rw [hp.length] at hn
    rw [ScanResult.samples] at hle ⊢
    rw [hoffset, BitVec.toNat_ofNat, Nat.mod_eq_of_lt (by omega), hcount]

/-- The other commands of opcode 0x10 or above leave the counts cleared and ABS_COUNT alone, unless they fault (R130,
R263). -/
theorem Effect.clearsCounts {i : Instr} {s t : State} (h : Effect s i t) (hr : s.Running)
    (hopcode : 0x10 ≤ i.opcode.number.toNat) (hrun : ∀ n, i ≠ .runDetect n ∧ i ≠ .runDecode n)
    (hfault : t.status.fault = false) : t.consumed = 0 ∧ t.produced = 0 ∧ t.absCount = s.absCount := by
  cases h with
  | responded _ _ hread =>
    obtain ⟨csr, rfl⟩ := hread hr
    exact absurd hopcode (by simp [Instr.opcode, Opcode.number])
  | faulted => cases hfault
  | reset | ratioWritten | csrWritten | anchored => exact absurd hopcode (by simp [Instr.opcode, Opcode.number])
  | noBurst _ n hi => exact absurd hi (not_or.mpr (hrun n))
  | burstDetected n => exact absurd rfl (hrun n).1
  | burstDecoded n => exact absurd rfl (hrun n).2
  | _ => exact ⟨rfl, rfl, rfl⟩

/-- Settles O45: both RUN commands consume the samples of their scan (`Consumes.rule`), and every other command clears
the counts at its entry (`Effect.clearsCounts`). -/
theorem consumptionRule : Obligations.ConsumptionRule := by
  intro s t hr
  refine ⟨fun n i hp hc hrun h => ?_, fun i hopcode hrun h => (exec_effect h).clearsCounts hr hopcode hrun⟩
  obtain ⟨r, hscan, hconsumes⟩ : ∃ r, scan s (presentedWindow s) = some r ∧ Consumes s t r := by
    rcases hrun with rfl | rfl
    · exact runDetect_consumes hr hp hc h
    · exact runDecode_consumes hr hp hc h
  exact hconsumes.rule hp hscan

/-! ### RUN.DECODE as a sequence of commands (R264) -/

/-- What DET.TEST leaves on an accepted candidate (R169). -/
def burstTested (i : Nat) (ref : Word) (s : State) : State :=
  endedWith 0x03 (counted 0 0 { s with res0 := 0, burstOffset := BitVec.ofNat 32 i, refLevel := ref })

/-- What SLICE.FRAME leaves, with the frame registers of `f` (R194). -/
def frameSliced (f s : State) : State :=
  endedWith 0x00 (counted 0 0 { s with fb := f.fb, lcbPos := f.lcbPos, lcbTotal := f.lcbTotal, kind := f.kind })

/-- What CLS.FRUIT leaves on a frame with a second preamble at `j` (R214). -/
def foundFruited (j : Nat) (s : State) : State :=
  endedWith 0x21 (counted 0 0 { s with res0 := BitVec.ofNat 32 j, status := { s.status with fruited := true } })

/-- What CLS.FRUIT leaves on a frame without one (R214). -/
def foundClean (s : State) : State :=
  endedWith 0x2A (counted 0 0 { s with res0 := 0, status := { s.status with fruited := false } })

section
variable (i j : Nat) (ref : Word) (f s : State)

@[simp] theorem burstTested_config : (burstTested i ref s).config = s.config := rfl
@[simp] theorem burstTested_status : (burstTested i ref s).status = s.status := rfl
@[simp] theorem burstTested_calls : (burstTested i ref s).calls = s.calls := rfl
@[simp] theorem burstTested_refLevel : (burstTested i ref s).refLevel = ref := rfl
@[simp] theorem burstTested_burstOffset : (burstTested i ref s).burstOffset = BitVec.ofNat 32 i := rfl
@[simp] theorem frameSliced_config : (frameSliced f s).config = s.config := rfl
@[simp] theorem frameSliced_status : (frameSliced f s).status = s.status := rfl
@[simp] theorem frameSliced_calls : (frameSliced f s).calls = s.calls := rfl
@[simp] theorem frameSliced_burstOffset : (frameSliced f s).burstOffset = s.burstOffset := rfl
@[simp] theorem frameSliced_kind : (frameSliced f s).kind = f.kind := rfl
@[simp] theorem foundClean_fault : (foundClean s).status.fault = s.status.fault := rfl

end

/-- A state with the same FAULT flag runs as well. -/
theorem State.Running.of_fault_eq {s u : State} (hr : s.Running) (h : u.status.fault = s.status.fault) : u.Running :=
  h.trans hr

/-- The window is that of the next host call (R71). -/
theorem presentedWindow_congr {s u : State} (h : u.calls = s.calls) : presentedWindow u = presentedWindow s := by
  rw [presentedWindow, presentedWindow, h]

theorem State.Presents.of_calls_eq {s u : State} {n : Word} (hp : s.Presents n) (hcalls : u.calls = s.calls)
    (hconfig : u.config = s.config) : u.Presents n where
  length := by rw [presentedWindow_congr hcalls, hp.length]
  config := by rw [hconfig, hp.config]

section
variable {s : State} {n : Word} (hr : s.Running) (hp : s.Presents n)
include hr hp

theorem exec_detTest_of_accept {j : Word} {i : Nat} {ref : Word} (hc : s.status.cfgValid = true)
    (hdet : detTest s (presentedWindow s) j.toNat = some (.accept i ref)) :
    exec (.detTest j n) s = .next (burstTested i ref s) := by
  obtain ⟨-, -, hvalid⟩ := detTestCommand s j n hr hp
  obtain ⟨r, hr', -, hexec⟩ := hvalid hc
  cases hdet.symm.trans hr'
  exact hexec

theorem exec_sliceFrame_of_fits {f : State} (hfits : s.burstOffset.toNat + 240 * s.config.spc ≤ n.toNat)
    (hf : sliceFrame (presentedWindow s) s.burstOffset.toNat s.refLevel s = some f) :
    exec (.sliceFrame n) s = .next (frameSliced f s) := by
  obtain ⟨-, -, hslice⟩ := sliceFrameCommand s n hr hp
  obtain ⟨f', hf', hexec⟩ := hslice hfits
  cases hf.symm.trans hf'
  exact hexec

theorem exec_clsFruit_of_fits {hit : Option Nat} (hc : s.status.cfgValid = true)
    (hfits : s.burstOffset.toNat + kindSpan s.config.spc s.kind ≤ n.toNat)
    (hhit : fruit s (presentedWindow s) s.burstOffset.toNat s.kind = some hit) :
    exec (.clsFruit n) s = .next (hit.elim (foundClean s) (foundFruited · s)) := by
  obtain ⟨-, -, -, hfruit⟩ := clsFruitCommand s n hr hp
  obtain ⟨hit', hhit', hexec⟩ := hfruit hc hfits
  cases hhit.symm.trans hhit'
  rw [hexec]
  cases hit <;> rfl

end

/-- A frame of either kind is within the worst case (R6). -/
theorem kindSpan_le (spc : Nat) (kind : FrameKind) : kindSpan spc kind ≤ 240 * spc := by
  cases kind <;> simp only [kindSpan, kindLen] <;> omega

/-- Decoding a burst slices the frame that SLICE.FRAME slices behind DET.TEST, and scans it for fruit as CLS.FRUIT
does (R264). -/
theorem decodeBurst_stages {w : Window} {i : Nat} {ref : Word} {s : State} {v : Code × State}
    (h : decodeBurst w i ref s = some v) :
    ∃ f hit, sliceFrame w i ref (burstTested i ref s) = some f ∧
      fruit (frameSliced f (burstTested i ref s)) w i f.kind = some hit ∧
      v = judgeFrame hit (withFrameOf f (setBurst i ref (timestamp i s))) := by
  obtain ⟨t, hit, ht, hhit, rfl⟩ := decodeBurst_eq_some_iff.mp h
  have hsame : SameSlicer (setBurst i ref (timestamp i s)) (burstTested i ref s) := by
    rw [timestamp_frame]
    exact ⟨rfl, rfl, rfl, rfl, rfl⟩
  rw [sliceFrame_congr hsame, Option.map_eq_some_iff] at ht
  obtain ⟨f, hf, rfl⟩ := ht
  refine ⟨f, hit, hf, (fruit_congr ?_ ?_ ?_ w i f.kind).trans hhit, rfl⟩ <;>
    rw [timestamp_frame] <;> rfl

/-- `t` is `u` in every register but the counts, ABS_COUNT, the TS registers with TS_VALID, and RES0 (R264). -/
def AgreesButForCounts (t u : State) : Prop :=
  t = { u with
    consumed := t.consumed, produced := t.produced, absCount := t.absCount, tsSecs := t.tsSecs, tsFrac := t.tsFrac,
    status := { u.status with tsValid := t.status.tsValid }, res0 := t.res0 }

theorem finishDecode_agrees_of_fruited (c i j : Nat) (ref : Word) (f s : State) :
    AgreesButForCounts (finishDecode c (judgeFrame (some j) (withFrameOf f (setBurst i ref (timestamp i s)))))
      (foundFruited j (frameSliced f (burstTested i ref s))) := by
  rw [timestamp_frame]
  rfl

/-- The validator answers the same behind CLS.FRUIT as in RUN.DECODE (R264). -/
theorem finishDecode_agrees_of_clean (c i : Nat) (ref : Word) (f s : State) {u : State}
    (hu : u = foundClean (frameSliced f (burstTested i ref s))) :
    AgreesButForCounts (finishDecode c (judgeFrame none (withFrameOf f (setBurst i ref (timestamp i s)))))
      (endedWith (validateFrame u).1.byte (counted 0 0 (validateFrame u).2)) := by
  have hverdict : judgeFrame none (withFrameOf f (setBurst i ref (timestamp i s))) = ((validateFrame u).1,
      { setFruited false (withFrameOf f (setBurst i ref (timestamp i s))) with
        fb := (validateFrame u).2.fb, syndrome := (validateFrame u).2.syndrome }) := by
    rw [judgeFrame, timestamp_frame]
    subst hu
    exact validateFrame_congr ⟨rfl, rfl, rfl, rfl, rfl⟩ rfl rfl rfl
  rw [hverdict, validateFrame_frame u, timestamp_frame]
  subst hu
  rfl

section
variable {s f : State} {n : Word} {i : Nat} {ref : Word} (hr : s.Running) (hp : s.Presents n)
  (hfits : i + 240 * s.config.spc ≤ n.toNat)
include hr hp hfits

theorem exec_sliceFrame_burstTested (hf : sliceFrame (presentedWindow s) i ref (burstTested i ref s) = some f) :
    exec (.sliceFrame n) (burstTested i ref s) = .next (frameSliced f (burstTested i ref s)) := by
  have hi : (BitVec.ofNat 32 i).toNat = i := toNat_ofNat_of_le ((Nat.le_add_right i _).trans hfits)
  have hwindow : presentedWindow (burstTested i ref s) = presentedWindow s := presentedWindow_congr (by simp)
  refine exec_sliceFrame_of_fits (hr.of_fault_eq (by simp)) (hp.of_calls_eq (by simp) (by simp)) ?_ ?_
  · simpa only [burstTested_burstOffset, burstTested_config, hi] using hfits
  · simpa only [burstTested_burstOffset, burstTested_refLevel, hi, hwindow] using hf

theorem exec_clsFruit_frameSliced (hc : s.status.cfgValid = true) {hit : Option Nat}
    (hhit : fruit (frameSliced f (burstTested i ref s)) (presentedWindow s) i f.kind = some hit) :
    exec (.clsFruit n) (frameSliced f (burstTested i ref s)) = .next (hit.elim
      (foundClean (frameSliced f (burstTested i ref s))) (foundFruited · (frameSliced f (burstTested i ref s)))) := by
  have hi : (BitVec.ofNat 32 i).toNat = i := toNat_ofNat_of_le ((Nat.le_add_right i _).trans hfits)
  have hwindow : presentedWindow (frameSliced f (burstTested i ref s)) = presentedWindow s :=
    presentedWindow_congr (by simp)
  have hspan := kindSpan_le s.config.spc f.kind
  refine exec_clsFruit_of_fits (hr.of_fault_eq (by simp)) (hp.of_calls_eq (by simp) (by simp)) (by simpa using hc) ?_ ?_
  · simp only [frameSliced_burstOffset, frameSliced_config, frameSliced_kind, burstTested_burstOffset,
      burstTested_config, hi]
    omega
  · simpa only [frameSliced_burstOffset, frameSliced_kind, burstTested_burstOffset, hi, hwindow] using hhit

end

/-- Settles O46: each command finds the state of the one before it, with the window, the burst and the frame that
RUN.DECODE has at that stage (`decodeBurst_stages`). -/
theorem runDecodeDecomposes : Obligations.RunDecodeDecomposes := by
  intro s t n i ref c hr hp hc hscan h AgreesWith
  obtain ⟨rfl, hfits, j, hlook, haccept, hearlier⟩ := scanFindsTheFirstBurst s _ _ hscan
  obtain ⟨v, hv, hexec⟩ := exec_runDecode_of_burst hr hp hc hscan
  cases h.symm.trans hexec
  obtain ⟨f, hit, hf, hhit, rfl⟩ := decodeBurst_stages hv
  rw [← hp.length] at hfits hlook
  have hj : (BitVec.ofNat 32 j).toNat = j := toNat_ofNat_of_le ((Nat.le_add_right j _).trans hlook)
  have htest := exec_detTest_of_accept (j := BitVec.ofNat 32 j) hr hp hc (hj.symm ▸ haccept)
  have hslice := exec_sliceFrame_burstTested hr hp hfits hf
  have hfruit := exec_clsFruit_frameSliced hr hp hfits hc hhit
  refine ⟨BitVec.ofNat 32 j, _, _, _, hj.symm ▸ hearlier, htest, rfl, hslice, rfl, hfruit, ?_⟩
  cases hit with
  | some k => exact .inl ⟨rfl, finishDecode_agrees_of_fruited _ i k ref f s⟩
  | none => exact .inr ⟨rfl, _, exec_validate (hr.of_fault_eq (by simp)), finishDecode_agrees_of_clean _ i ref f s rfl⟩

end Sys2Proof.Machine
end
